-- ==== Sys2Proof/Word.lean ====
section
/-! DEFINITION. The two widths the spec gives data: an 8-bit byte and the 16-bit host command word (00_scope.md R9, R12). -/

namespace Sys2Proof

/-- One byte: a segment byte, a bus command byte, a key result (30_encoding.md R90). -/
abbrev Byte := BitVec 8

/-- One host command word (30_encoding.md R91). -/
abbrev Word := BitVec 16

end Sys2Proof
end

