-- ==== Sys2Proof/Syntax.lean ====
section
/-! DEFINITION. The instructions: one constructor per row of spec/opcode_table.json, and the consumer that executes each
(30_encoding.md R90). -/

namespace Sys2Proof

/-- One row of the opcode table with its operands. Command words are executed by the block, bus command bytes and segment
bytes by the display sink, key results by the host foreground (30_encoding.md R90; assumption 5, DEDUCED). -/
inductive Instr
  /-- START: the start condition (40_framer_primitives.md R121) -/
  | start
  /-- STOP: the stop condition (R122) -/
  | stop
  /-- WRBYTE b: one byte and its acknowledge slot (R123, R124) -/
  | wrbyte (b : Byte)
  /-- SENDFRAME b: a one-byte frame (41_framer_commands.md R140) -/
  | sendframe (b : Byte)
  /-- RENDER m, s, c: the three-frame refresh (R143); m and s are in 0..59 (R146) -/
  | render (m s : BitVec 6) (c : Bool)
  /-- SCAN: the keypad scan (42_keypad_scanner.md R160) -/
  | scan
  /-- BUS_DATA_AUTOINC: the data command byte 0x40 (30_encoding.md R100) -/
  | busDataAutoinc
  /-- BUS_ADDR0: the address command byte 0xC0 (R100) -/
  | busAddr0
  /-- BUS_DISPLAY_ON: the control command byte 0x8F (R100) -/
  | busDisplayOn
  /-- SEG_0: the segment byte of the digit 0 (R102) -/
  | seg0
  /-- SEG_1: the segment byte of the digit 1 (R102) -/
  | seg1
  /-- SEG_2: the segment byte of the digit 2 (R102) -/
  | seg2
  /-- SEG_3: the segment byte of the digit 3 (R102) -/
  | seg3
  /-- SEG_4: the segment byte of the digit 4 (R102) -/
  | seg4
  /-- SEG_5: the segment byte of the digit 5 (R102) -/
  | seg5
  /-- SEG_6: the segment byte of the digit 6 (R102) -/
  | seg6
  /-- SEG_7: the segment byte of the digit 7 (R102) -/
  | seg7
  /-- SEG_8: the segment byte of the digit 8 (R102) -/
  | seg8
  /-- SEG_9: the segment byte of the digit 9 (R102) -/
  | seg9
  /-- COLON_BIT: a segment byte with bit 7 set, `low` being its other seven bits (R103) -/
  | colonBit (low : BitVec 7)
  /-- KEY_1: the symbol '1', row 0, column 0 (R104, R105) -/
  | key1
  /-- KEY_2: the symbol '2', row 0, column 1 (R104, R105) -/
  | key2
  /-- KEY_3: the symbol '3', row 0, column 2 (R104, R105) -/
  | key3
  /-- KEY_A: the symbol 'A', row 0, column 3 (R104, R105) -/
  | keyA
  /-- KEY_4: the symbol '4', row 1, column 0 (R104, R105) -/
  | key4
  /-- KEY_5: the symbol '5', row 1, column 1 (R104, R105) -/
  | key5
  /-- KEY_6: the symbol '6', row 1, column 2 (R104, R105) -/
  | key6
  /-- KEY_B: the symbol 'B', row 1, column 3 (R104, R105) -/
  | keyB
  /-- KEY_7: the symbol '7', row 2, column 0 (R104, R105) -/
  | key7
  /-- KEY_8: the symbol '8', row 2, column 1 (R104, R105) -/
  | key8
  /-- KEY_9: the symbol '9', row 2, column 2 (R104, R105) -/
  | key9
  /-- KEY_C: the symbol 'C', row 2, column 3 (R104, R105) -/
  | keyC
  /-- KEY_STAR: the symbol '*', row 3, column 0 (R104, R105) -/
  | keyStar
  /-- KEY_0: the symbol '0', row 3, column 1 (R104, R105) -/
  | key0
  /-- KEY_HASH: the symbol '#', row 3, column 2 (R104, R105) -/
  | keyHash
  /-- KEY_D: the symbol 'D', row 3, column 3 (R104, R105) -/
  | keyD
  /-- KEY_NONE: no key (R105) -/
  | keyNone
  deriving DecidableEq, Repr, Inhabited

/-- Who executes an instruction (30_encoding.md R90, R95). -/
inductive Consumer
  | framer
  | scanner
  | display
  | host
  deriving DecidableEq, Repr

/-- The consumer of an instruction's encoding (30_encoding.md R90; the unit column of R95). -/
def Instr.consumer : Instr → Consumer
  | .start => .framer
  | .stop => .framer
  | .wrbyte _ => .framer
  | .sendframe _ => .framer
  | .render _ _ _ => .framer
  | .scan => .scanner
  | .busDataAutoinc => .display
  | .busAddr0 => .display
  | .busDisplayOn => .display
  | .seg0 => .display
  | .seg1 => .display
  | .seg2 => .display
  | .seg3 => .display
  | .seg4 => .display
  | .seg5 => .display
  | .seg6 => .display
  | .seg7 => .display
  | .seg8 => .display
  | .seg9 => .display
  | .colonBit _ => .display
  | .key1 => .host
  | .key2 => .host
  | .key3 => .host
  | .keyA => .host
  | .key4 => .host
  | .key5 => .host
  | .key6 => .host
  | .keyB => .host
  | .key7 => .host
  | .key8 => .host
  | .key9 => .host
  | .keyC => .host
  | .keyStar => .host
  | .key0 => .host
  | .keyHash => .host
  | .keyD => .host
  | .keyNone => .host

end Sys2Proof
end

