-- ==== Sys2Proof/WellFormed.lean ====
section
/-! DEFINITION. Well-formed instructions: the operand domain of RENDER (41_framer_commands.md R146). Every other operand
is legal at every value its field holds (30_encoding.md R94). -/

namespace Sys2Proof

/-- A minutes or seconds operand of RENDER is in 0..59 (R146). -/
def timeInDomain (v : BitVec 6) : Bool := v.toNat ≤ 59

/-- The check of an instruction's operands, every constructor named. -/
def Instr.wellFormed : Instr → Bool
  | .start => true
  | .stop => true
  | .wrbyte _ => true
  | .sendframe _ => true
  | .render m s _ => timeInDomain m && timeInDomain s
  | .scan => true
  | .busDataAutoinc => true
  | .busAddr0 => true
  | .busDisplayOn => true
  | .seg0 => true
  | .seg1 => true
  | .seg2 => true
  | .seg3 => true
  | .seg4 => true
  | .seg5 => true
  | .seg6 => true
  | .seg7 => true
  | .seg8 => true
  | .seg9 => true
  | .colonBit _ => true
  | .key1 => true
  | .key2 => true
  | .key3 => true
  | .keyA => true
  | .key4 => true
  | .key5 => true
  | .key6 => true
  | .keyB => true
  | .key7 => true
  | .key8 => true
  | .key9 => true
  | .keyC => true
  | .keyStar => true
  | .key0 => true
  | .keyHash => true
  | .keyD => true
  | .keyNone => true

end Sys2Proof
end

