-- ==== Sys2Proof/Decode.lean ====
section
/-! DEFINITION. The decoder, total and rejecting by name (30_encoding.md R97), and after it the encoder, both written from
the encoding tables of 30_encoding.md. -/

namespace Sys2Proof

/-! ## The code spaces -/

/-- A code in the space of the consumer that decodes it (30_encoding.md R90): a command word, the first byte of a frame, a
later byte of a frame, a key result. -/
inductive Code
  | word (w : Word)
  | bus (b : Byte)
  | data (b : Byte)
  | key (b : Byte)
  deriving DecidableEq, Repr

/-- The bits of a code as the opcode table numbers them. -/
def codeValue : Code → Nat
  | .word w => w.toNat
  | .bus b => b.toNat
  | .data b => b.toNat
  | .key b => b.toNat

/-- The width of a code in bits (30_encoding.md R90). -/
def codeWidth : Code → Nat
  | .word _ => 16
  | .bus _ => 8
  | .data _ => 8
  | .key _ => 8

/-- What a decoder answers: an instruction, or one of the verdicts that refuse it by name. -/
inductive Verdict
  /-- the code is this instruction -/
  | ok (i : Instr)
  /-- a reserved command word (R96) -/
  | reserved
  /-- a RENDER word with an operand above 59 (R93, R146) -/
  | outOfDomain
  /-- a byte that no row of its space lists (R100, R102, R105) -/
  | unlisted
  deriving DecidableEq, Repr

/-! ## Fields of a command word (R91, R92) -/

/-- The operation field `w[15:13]`. -/
def opField (w : Word) : BitVec 3 := w.extractLsb' 13 3

/-- The operand field `w[12:0]`. -/
def argField (w : Word) : BitVec 13 := w.extractLsb' 0 13

/-- Bits `w[12:8]`, which must be zero in format B. -/
def padField (w : Word) : BitVec 5 := w.extractLsb' 8 5

/-- The byte operand `w[7:0]` (R94). -/
def byteField (w : Word) : Byte := w.extractLsb' 0 8

/-- The minutes operand `w[11:6]` (R93). -/
def minutesField (w : Word) : BitVec 6 := w.extractLsb' 6 6

/-- The seconds operand `w[5:0]` (R93). -/
def secondsField (w : Word) : BitVec 6 := w.extractLsb' 0 6

/-- The colon operand `w[12]` (R93). -/
def colonField (w : Word) : Bool := w.getLsbD 12

/-! ## Decoding -/

/-- Decoding a command word, in the order of R97. -/
def decodeWord (w : Word) : Verdict :=
  match (opField w).toNat with
  | 1 => if argField w = 0 then .ok .start else .reserved
  | 2 => if argField w = 0 then .ok .stop else .reserved
  | 3 => if padField w = 0 then .ok (.wrbyte (byteField w)) else .reserved
  | 4 => if padField w = 0 then .ok (.sendframe (byteField w)) else .reserved
  | 5 =>
    if timeInDomain (minutesField w) && timeInDomain (secondsField w) then
      .ok (.render (minutesField w) (secondsField w) (colonField w))
    else .outOfDomain
  | 6 => if argField w = 0 then .ok .scan else .reserved
  | _ => .reserved

/-- The three bus command bytes (R100). -/
def busRows : List (Byte × Instr) :=
  [(0x40, .busDataAutoinc), (0xC0, .busAddr0), (0x8F, .busDisplayOn)]

/-- The ten segment patterns (R102). -/
def segRows : List (Byte × Instr) :=
  [(0x3F, .seg0), (0x06, .seg1), (0x5B, .seg2), (0x4F, .seg3), (0x66, .seg4),
   (0x6D, .seg5), (0x7D, .seg6), (0x07, .seg7), (0x7F, .seg8), (0x6F, .seg9)]

/-- The sixteen key symbols and none (R105). -/
def keyRows : List (Byte × Instr) :=
  [(0x31, .key1), (0x32, .key2), (0x33, .key3), (0x41, .keyA),
   (0x34, .key4), (0x35, .key5), (0x36, .key6), (0x42, .keyB),
   (0x37, .key7), (0x38, .key8), (0x39, .key9), (0x43, .keyC),
   (0x2A, .keyStar), (0x30, .key0), (0x23, .keyHash), (0x44, .keyD),
   (0x00, .keyNone)]

/-- The verdict of a table lookup. -/
def listed : Option Instr → Verdict
  | some i => .ok i
  | none => .unlisted

/-- Decoding the first byte of a frame (R100). -/
def decodeBus (b : Byte) : Verdict := listed (busRows.lookup b)

/-- Decoding a data byte of the burst: a segment pattern, or a byte with the colon bit (R102, R103). -/
def decodeData (b : Byte) : Verdict :=
  if b.getLsbD 7 then .ok (.colonBit (b.extractLsb' 0 7)) else listed (segRows.lookup b)

/-- Decoding a key result (R105). -/
def decodeKey (b : Byte) : Verdict := listed (keyRows.lookup b)

/-- The decoder: total on every code of every space. -/
def decode : Code → Verdict
  | .word w => decodeWord w
  | .bus b => decodeBus b
  | .data b => decodeData b
  | .key b => decodeKey b

/-! ## Encoding -/

/-- The word of START (R95). -/
def startWord : Word := 0x2000

/-- The word of STOP (R95). -/
def stopWord : Word := 0x4000

/-- The word of SCAN (R95). -/
def scanWord : Word := 0xC000

/-- The word of WRBYTE b (R123). -/
def wrbyteWord (b : Byte) : Word := 0x6000 ||| b.zeroExtend 16

/-- The word of SENDFRAME b (R140). -/
def sendframeWord (b : Byte) : Word := 0x8000 ||| b.zeroExtend 16

/-- The word of RENDER m, s, c (R143). -/
def renderWord (m s : BitVec 6) (c : Bool) : Word :=
  0xA000 ||| ((BitVec.ofBool c).zeroExtend 16 <<< 12) ||| (m.zeroExtend 16 <<< 6) ||| s.zeroExtend 16

/-- The encoder: the code of an instruction in the space of its consumer. -/
def encode : Instr → Code
  | .start => .word startWord
  | .stop => .word stopWord
  | .wrbyte b => .word (wrbyteWord b)
  | .sendframe b => .word (sendframeWord b)
  | .render m s c => .word (renderWord m s c)
  | .scan => .word scanWord
  | .busDataAutoinc => .bus 0x40
  | .busAddr0 => .bus 0xC0
  | .busDisplayOn => .bus 0x8F
  | .seg0 => .data 0x3F
  | .seg1 => .data 0x06
  | .seg2 => .data 0x5B
  | .seg3 => .data 0x4F
  | .seg4 => .data 0x66
  | .seg5 => .data 0x6D
  | .seg6 => .data 0x7D
  | .seg7 => .data 0x07
  | .seg8 => .data 0x7F
  | .seg9 => .data 0x6F
  | .colonBit low => .data (0x80 ||| low.zeroExtend 8)
  | .key1 => .key 0x31
  | .key2 => .key 0x32
  | .key3 => .key 0x33
  | .keyA => .key 0x41
  | .key4 => .key 0x34
  | .key5 => .key 0x35
  | .key6 => .key 0x36
  | .keyB => .key 0x42
  | .key7 => .key 0x37
  | .key8 => .key 0x38
  | .key9 => .key 0x39
  | .keyC => .key 0x43
  | .keyStar => .key 0x2A
  | .key0 => .key 0x30
  | .keyHash => .key 0x23
  | .keyD => .key 0x44
  | .keyNone => .key 0x00

/-! ## The table's bytes without their place -/

/-- The code of an opcode-table row: 16 bits are a command word; 8 bits are a bus command byte or a key result where one
of those rows lists the byte, else a data byte of the burst. No byte is in two of the three lists but for `1-------`
(COLON_BIT), which also covers the two bus bytes 0xC0 and 0x8F. -/
def tableCode (nbits w : Nat) : Code :=
  if nbits ≤ 8 then
    let b : Byte := BitVec.ofNat 8 w
    if (busRows.lookup b).isSome then .bus b
    else if (keyRows.lookup b).isSome then .key b
    else .data b
  else .word (BitVec.ofNat 16 w)

/-- The instruction a verdict carries. -/
def verdictInstr : Verdict → Option Instr
  | .ok i => some i
  | .reserved => none
  | .outOfDomain => none
  | .unlisted => none

/-- The instruction the decoder reads from an opcode-table word. -/
def decodeTableWord (nbits w : Nat) : Option Instr := verdictInstr (decode (tableCode nbits w))

end Sys2Proof
end

