-- ==== Sys2Proof/Config.lean ====
section
/-! DEFINITION. What the spec leaves to the implementation (00_scope.md R8) and to the environment: constants without a
body, so that a statement about them holds for every value they may have. -/

namespace Sys2Proof

/-- One choice of the environment: which agent of 60_exceptions.md R246 moves next, with the input that move needs.
DESIGN CHOICE (assumption 2): all freedom of the spec (U6, U15, U16, U20, U24, U25) is in the sequence of moves. Safe: every
sequence is allowed. -/
inductive Move
  /-- the block looks at the word an outside host presents at the command port (10_state.md R37, 40_framer_primitives.md R120) -/
  | command
  /-- the framer takes a step (R127) -/
  | framer
  /-- the scanner takes a step (R171); should it sample, the columns read `cols` (R173) -/
  | scanner (cols : BitVec 4)
  /-- the scanner takes a step; should it sample, the ideal matrix answers (R174) -/
  | scannerIdeal
  /-- the host foreground takes its next atomic action (R232) -/
  | foreground
  /-- the running tick handler takes its next action (R196) -/
  | handler
  /-- the Timebase fires (R200) -/
  | tick
  /-- the display sink reads one more byte of the frames it received (R68) -/
  | display
  /-- the operator presses the key at a row and a column (R173, R174) -/
  | press (row col : Fin 4)
  /-- the operator releases the key at a row and a column -/
  | release (row col : Fin 4)
  /-- the peripheral the boot waits for becomes ready (R223, R265) -/
  | peripheralReady
  /-- `rst` is asserted (70_reset_and_hazards.md R260) -/
  | rst
  deriving DecidableEq, Repr, Inhabited

/-- `T_SETTLE`, an integer of at least 1 block clock (00_scope.md R8, D16). -/
opaque Config.tSettle : ℕ+

/-- `T_DEBOUNCE`, an integer of at least 1 block clock (00_scope.md R8, D16). -/
opaque Config.tDebounce : ℕ+

/-- `T_TICK`, the tick interval in block clocks (00_scope.md R8, D16). -/
opaque Config.tTick : ℕ+

/-- `ROW_ACTIVE_LEVEL`, the electrical level of an active row pin (10_state.md R23, D10). -/
opaque Config.rowActiveLevel : Bool

/-- `COL_ACTIVE_LEVEL`, the electrical level of an active column pin (10_state.md R23, D10). -/
opaque Config.colActiveLevel : Bool

/-- `COLON_INIT`, the host's initial ColonPhase (43_host_stopwatch.md R201, D19). -/
opaque Config.colonInit : Bool

/-- The free choice of the `n`-th move beyond those State already lists. -/
opaque Config.draw : Nat → Move

end Sys2Proof
end

