-- ==== Sys2Proof/Machine/State.lean ====
section
/-! DEFINITION. The state of the machine as plain data: every piece of state 10_state.md gives it, the observers of
20_memory.md, the positions of the host's two threads, and the inputs the step reads. -/

namespace Sys2Proof.Machine

/-! ## Events (00_scope.md R14) -/

/-- The two bus lines (10_state.md R21). -/
inductive Line
  | clk
  | dio
  deriving DecidableEq, Repr

/-- A framer event: a pin write `W(L, v)` or `WAIT(T_SETTLE)` (R14). -/
inductive FrEvent
  | write (l : Line) (v : Bool)
  | settle
  deriving DecidableEq, Repr

/-- Who performed an event (10_state.md R40). -/
inductive EventSource
  | framer
  | scanner
  | host
  deriving DecidableEq, Repr

/-- One event of the trace (R14). -/
inductive Event
  /-- an event of the framer -/
  | fr (e : FrEvent)
  /-- `RW(v4)` -/
  | rowWrite (v : BitVec 4)
  /-- `CS(v4)` -/
  | colSample (v : BitVec 4)
  /-- `WAIT(T_DEBOUNCE)` -/
  | debounce
  /-- `RET(k)` -/
  | ret (k : Byte)
  /-- `ISSUE(w)` -/
  | issue (w : Word)
  /-- `DONE(framer)`; for the scanner `RET` is the completion event (10_state.md R40) -/
  | doneFramer
  deriving DecidableEq, Repr

/-- The unit an event of the trace is tagged with (10_state.md R40, R14). -/
def Event.source : Event → EventSource
  | .fr _ => .framer
  | .rowWrite _ => .scanner
  | .colSample _ => .scanner
  | .debounce => .scanner
  | .ret _ => .scanner
  | .issue _ => .host
  | .doneFramer => .host

/-! ## Parts of the state -/

/-- Four like entries, index 0 to 3: the DigitFrame (10_state.md R26). -/
structure Four (α : Type) where
  e0 : α
  e1 : α
  e2 : α
  e3 : α
  deriving DecidableEq, Repr

/-- `FPH`, the framer's phase (10_state.md R30, values 0 to 4 in this order). -/
inductive Phase
  | idle
  | start
  | byte
  | ack
  | stop
  deriving DecidableEq, Repr

/-- The five counters of the register-level realisation of `FQ` (10_state.md R30). -/
structure FrameCounters where
  fph : Phase
  fbyte : BitVec 3
  fbit : BitVec 3
  fsub : BitVec 3
  ffr : BitVec 2
  deriving DecidableEq, Repr

/-- `KST`, the scanner's sequencer position (10_state.md R33). -/
inductive ScanState
  | idle
  | drive
  | sample
  | releaseHit
  | debounce
  | releaseMiss
  | ret
  deriving DecidableEq, Repr

/-- `RunState` of the host (10_state.md R38). -/
inductive RunState
  | stopped
  | running
  deriving DecidableEq, Repr

/-- The call a foreground position belongs to: the boot's display, the loop's scan, the Reset's redisplay. -/
inductive Call
  | boot
  | scan
  | reset
  deriving DecidableEq, Repr

/-- The position of the host foreground: the boot of 70_reset_and_hazards.md R266, then the control loop of
43_host_stopwatch.md R199, one atomic action a position (R78, R232; assumption 12). -/
inductive Foreground
  /-- boot item (1): waiting for the peripherals, without time-out (R223, R265) -/
  | bootInit
  /-- boot item (2): the host variables take their initial values (R201) -/
  | bootVars
  /-- `ISSUE(w)`: present `w` until the unit accepts it (R204) -/
  | issue (w : Word) (c : Call)
  /-- wait for the unit's completion (R204) -/
  | wait (c : Call)
  /-- boot item (4): enable the tick interrupt -/
  | enableTick
  /-- `k <- KEY` (R199) -/
  | readKey
  /-- `dispatch(k)` (R191) -/
  | dispatch (k : Byte)
  /-- Reset: `minutes <- 0` (R194) -/
  | resetMinutes
  /-- Reset: `seconds <- 0` (R194) -/
  | resetSeconds
  /-- Reset: read ColonPhase and compose the redisplay's word (R194) -/
  | resetColon
  deriving DecidableEq, Repr

/-- The host that drives the command port in this run: the reference host of 43_host_stopwatch.md, or an outside host with
a finite program of command words (30_encoding.md R107; 70_reset_and_hazards.md R287 tells the two apart). The model's own
(assumption 4). -/
inductive DrivingHost
  | reference
  | program
  deriving DecidableEq, Repr

/-- The position of the tick handler (43_host_stopwatch.md R196, R197). -/
inductive Handler
  /-- no handler runs -/
  | idle
  /-- read RunState, once (R197) -/
  | readRun
  /-- `seconds <- seconds + 1` -/
  | incSeconds
  /-- `seconds <- 0` -/
  | zeroSeconds
  /-- `minutes <- minutes + 1` -/
  | incMinutes
  /-- `minutes <- 0` -/
  | zeroMinutes
  /-- `ColonPhase <- not ColonPhase` -/
  | toggleColon
  /-- compose the RENDER word from the updated variables (R198) -/
  | compose
  /-- `ISSUE(w)` -/
  | issue (w : Word)
  /-- wait for `f_done` -/
  | wait
  deriving DecidableEq, Repr

/-- The bus monitor's own state (20_memory.md R66). -/
structure Monitor where
  inframe : Bool
  nbits : Nat
  acc : Byte
  cur : List Byte
  out : List (List Byte)
  malformed : Bool
  deriving DecidableEq, Repr

/-- `mode` of the display sink (20_memory.md R68). -/
inductive SinkMode
  | unset
  | autoinc
  deriving DecidableEq, Repr

/-- `on` of the display sink (20_memory.md R68). -/
inductive SinkOn
  | unknown
  | on
  deriving DecidableEq, Repr

/-- The display sink but for its memory (20_memory.md R68). `refused` is the mark of R68's `refuse`. `inbox`, `rest` and
`addr` are the model's own (assumption 6): the frames not read yet, the unread bytes of the frame being read, and the
display address of the next data byte. -/
structure Sink where
  mode : SinkMode
  on : SinkOn
  refused : Bool
  inbox : List (List Byte)
  rest : List Byte
  addr : Nat
  deriving DecidableEq, Repr

/-- Memory: cells with strictly rising addresses; an address that no cell lists is unknown. Its one use is the display
address space (20_memory.md R63, R68; assumption 18). -/
abbrev Memory := List Host.Cell

/-- The canonical form: addresses strictly rise. No cell can equal what an unlisted address reads as, which is no value. -/
def Memory.wf (m : Memory) : Bool := decide (m.Pairwise fun x y => x.1 < y.1)

/-! ## The state -/

/-- The state of the whole model (10_state.md R20). -/
structure State where
  /-- `CLK`, the level the block drives (R21, R22) -/
  clk : Bool
  /-- `DIO`, the level the block drives (R21, R22) -/
  dio : Bool
  /-- `ROW`, logical, bit r = row r (R23) -/
  row : BitVec 4
  /-- `FCMD` (R27) -/
  fcmd : Word
  /-- `SHR` (R25) -/
  shr : Byte
  /-- `DF[0..3]` (R26) -/
  df : Four Byte
  /-- `FQ`, the events still to perform, in order (R28) -/
  fq : List FrEvent
  /-- `F_BUSY` (R29) -/
  fBusy : Bool
  /-- `f_done`, the completion pulse: true right after the step that completed a framer command, and in no other state (R37,
  40_framer_primitives.md R128; assumption 8) -/
  fDone : Bool
  /-- the host has been given `f_done` since the framer's last acceptance; the model's own (43_host_stopwatch.md R204;
  assumption 8) -/
  fNoted : Bool
  /-- `FPH`, `FBYTE`, `FBIT`, `FSUB`, `FFR` (R30) -/
  ctr : FrameCounters
  /-- `KROW` (R31) -/
  krow : BitVec 2
  /-- `KCOLS` (R32) -/
  kcols : BitVec 4
  /-- `KST` (R33) -/
  kst : ScanState
  /-- `K_BUSY` (R34) -/
  kBusy : Bool
  /-- `k_done`, the completion pulse: true right after the step that returned a scan's result, and in no other state (R37,
  42_keypad_scanner.md R167; assumption 8) -/
  kDone : Bool
  /-- the host has been given `k_done` since the scanner's last acceptance; the model's own (43_host_stopwatch.md R204;
  assumption 8) -/
  kNoted : Bool
  /-- `KEY` (R35) -/
  key : Byte
  /-- `RunState` (R38) -/
  runState : RunState
  /-- `ElapsedTime.minutes` (R38) -/
  minutes : Nat
  /-- `ElapsedTime.seconds` (R38) -/
  seconds : Nat
  /-- `ColonPhase` (R38) -/
  colonPhase : Bool
  /-- the foreground's position (43_host_stopwatch.md R199) -/
  fg : Foreground
  /-- the tick handler's position (43_host_stopwatch.md R196) -/
  handler : Handler
  /-- the tick interrupt is enabled (70_reset_and_hazards.md R266) -/
  tickEnabled : Bool
  /-- the peripheral the boot waits for is ready (R223) -/
  periphReady : Bool
  /-- `TR` (R40) -/
  trace : List Event
  /-- the bus monitor (20_memory.md R66) -/
  mon : Monitor
  /-- the display sink (20_memory.md R68) -/
  sink : Sink
  /-- `DM[0..3]` (20_memory.md R68) -/
  dm : Memory
  /-- the pressed cells of the ideal matrix, bit `4 * row + column` (42_keypad_scanner.md R174) -/
  pressed : BitVec 16
  /-- the host that drives the command port (assumption 4) -/
  host : DrivingHost
  /-- the words an outside host has still to issue, first first (30_encoding.md R107; assumption 4) -/
  program : List Word
  /-- the moves already chosen (assumption 2) -/
  moves : List Move
  /-- how many moves were drawn freely (assumption 2) -/
  draws : Nat
  deriving DecidableEq, Repr

/-- Why the machine stops with a fault. The block itself raises none (60_exceptions.md R220). -/
inductive Fault
  /-- `SEG` was read at an index outside 0..9, which has no entry (20_memory.md R60, treatment U3). Raised by the digit
  function of RENDER; no operand of RENDER leads there (R146). Safe: the model stops. -/
  | segIndex
  deriving DecidableEq, Repr

/-- Why a command has no meaning (60_exceptions.md R225). -/
inductive Refusal
  /-- an instruction of the table that the model gives no meaning yet; raised by exec only. Safe: the model stops. -/
  | notModelled (mnemonic : String)
  /-- a reserved command word was presented (30_encoding.md R96); raised by the step. Safe: the run is marked. -/
  | reservedWord
  /-- a RENDER with an operand above 59 was presented (41_framer_commands.md R146); raised by the step and by RENDER.
  Safe: the run is marked. -/
  | renderOutOfDomain
  deriving DecidableEq, Repr

/-- The outcome of an instruction or a step. -/
abbrev Out := Host.Outcome State Fault Refusal

/-! ## Reset -/

/-- The framer's counters when it is idle (10_state.md R42). -/
def FrameCounters.zero : FrameCounters :=
  { fph := .idle, fbyte := 0, fbit := 0, fsub := 0, ffr := 0 }

/-- The bus monitor before any event (20_memory.md R66). -/
def Monitor.initial : Monitor :=
  { inframe := false, nbits := 0, acc := 0, cur := [], out := [], malformed := false }

/-- The display sink before any frame (20_memory.md R68). -/
def Sink.initial : Sink :=
  { mode := .unset, on := .unknown, refused := false, inbox := [], rest := [], addr := 0 }

/-- The machine right after reset (10_state.md R42, 70_reset_and_hazards.md R260). `fcmd`, `shr`, `df`, `krow` and `kcols`
have no reset value in the spec and are zero here (assumption 1, DESIGN CHOICE, unsafe). -/
def State.reset : State where
  clk := true
  dio := true
  row := 0
  fcmd := 0
  shr := 0
  df := ⟨0, 0, 0, 0⟩
  fq := []
  fBusy := false
  fDone := false
  fNoted := false
  ctr := FrameCounters.zero
  krow := 0
  kcols := 0
  kst := .idle
  kBusy := false
  kDone := false
  kNoted := false
  key := 0
  runState := .stopped
  minutes := 0
  seconds := 0
  colonPhase := Config.colonInit
  fg := .bootInit
  handler := .idle
  tickEnabled := false
  periphReady := false
  trace := []
  mon := Monitor.initial
  sink := Sink.initial
  dm := []
  pressed := 0
  host := .reference
  program := []
  moves := []
  draws := 0

end Sys2Proof.Machine
end

