-- ==== Sys2Proof/Machine/Operands.lean ====
section
/-! DEFINITION. The constant tables, the operand functions and the electrical views of the pins (20_memory.md R60, R61;
41_framer_commands.md R141; 42_keypad_scanner.md R164; 10_state.md R22, R23). -/

namespace Sys2Proof.Machine

/-! ## Segments -/

/-- The ten entries of `SEG` (20_memory.md R60). -/
def segTable : List Byte := [0x3F, 0x06, 0x5B, 0x4F, 0x66, 0x6D, 0x7D, 0x07, 0x7F, 0x6F]

/-- `SEG[d]`; an index outside 0..9 has no entry (20_memory.md R60). -/
def seg (d : Nat) : Option Byte := segTable[d]?

/-- The colon bit of the second digit byte (30_encoding.md R103). -/
def colonByte (c : Bool) : Byte := if c then 0x80 else 0x00

/-- `digits(m, s, c)` (41_framer_commands.md R141). -/
def digits (m s : BitVec 6) (c : Bool) : Option (Four Byte) :=
  match seg (m.toNat / 10), seg (m.toNat % 10), seg (s.toNat / 10), seg (s.toNat % 10) with
  | some d0, some d1, some d2, some d3 => some ⟨d0, d1 ||| colonByte c, d2, d3⟩
  | _, _, _, _ => none

/-- The entries of a DigitFrame in index order (20_memory.md R62). -/
def fourList {α : Type} (f : Four α) : List α := [f.e0, f.e1, f.e2, f.e3]

/-! ## Keys -/

/-- The rows of `KEYMAP` as codes, row-major (20_memory.md R61, 30_encoding.md R105). -/
def keymapTable : List (List Byte) :=
  [[0x31, 0x32, 0x33, 0x41],
   [0x34, 0x35, 0x36, 0x42],
   [0x37, 0x38, 0x39, 0x43],
   [0x2A, 0x30, 0x23, 0x44]]

/-- The code of "none" (30_encoding.md R105). -/
def keyNoneCode : Byte := 0x00

/-- `KEYMAP[r][c]` (20_memory.md R61). -/
def keymap (r c : BitVec 2) : Byte := ((keymapTable.getD r.toNat []).getD c.toNat keyNoneCode)

/-- `lowest(v4)`, the least index of a set bit of a value other than 0 (00_scope.md R13, 42_keypad_scanner.md R164). -/
def lowest (v : BitVec 4) : BitVec 2 :=
  if v.getLsbD 0 then 0 else if v.getLsbD 1 then 1 else if v.getLsbD 2 then 2 else 3

/-- `onehot(r)` (00_scope.md R13). -/
def onehot (r : BitVec 2) : BitVec 4 := 1#4 <<< r.toNat

/-- The result of a scan from its row and its last sample (42_keypad_scanner.md R167). -/
def scanResult (r : BitVec 2) (cols : BitVec 4) : Byte :=
  if cols = 0 then keyNoneCode else keymap r (lowest cols)

/-! ## The ideal matrix (42_keypad_scanner.md R174) -/

/-- The place of a cell in the set of pressed cells. -/
def cellIndex (r c : Fin 4) : Nat := 4 * r.val + c.val

/-- The columns that show the pressed cells of one row, or none while that row is inactive. -/
def rowAnswer (pressed : BitVec 16) (row : BitVec 4) (r : Nat) : BitVec 4 :=
  if row.getLsbD r then pressed.extractLsb' (4 * r) 4 else 0

/-- What the ideal matrix answers while the rows are driven: a column reads active when a pressed cell joins it to an
active row. R174 states it for one active row or none; for several rows, which no reachable state has (R44), it is
their union (assumption 21). -/
def idealSample (pressed : BitVec 16) (row : BitVec 4) : BitVec 4 :=
  rowAnswer pressed row 0 ||| rowAnswer pressed row 1 ||| rowAnswer pressed row 2 ||| rowAnswer pressed row 3

/-! ## Electrical views (10_state.md R22, R23; assumption 21) -/

/-- The electrical levels of four pins from their logical values, given the level of "active". -/
def pinLevels (activeLevel : Bool) (v : BitVec 4) : BitVec 4 := if activeLevel then v else ~~~v

/-- The electrical levels of the row pins. -/
def rowLevels (s : State) : BitVec 4 := pinLevels Config.rowActiveLevel s.row

/-- The logical sample that electrical column levels stand for. -/
def colLogical (levels : BitVec 4) : BitVec 4 := pinLevels Config.colActiveLevel levels

/-- The level on a wire: the AND of the block's driven level and every other driver's (10_state.md R22). -/
def wireLevel (driven : Bool) (others : List Bool) : Bool := driven && others.all id

end Sys2Proof.Machine
end

