-- ==== Sys2Proof/Machine/Expand.lean ====
section
/-! DEFINITION. The event lists of the framer's commands (40_framer_primitives.md R121 to R124, R129; 41_framer_commands.md
R140 to R143) and their counts. -/

namespace Sys2Proof.Machine

/-- One framer pin write and the settle wait that follows every pin write (R129). -/
def settled (l : Line) (v : Bool) : List FrEvent := [.write l v, .settle]

/-- `expand(START)`: C1 S D1 S D0 S (R121). -/
def expandStart : List FrEvent := settled .clk true ++ settled .dio true ++ settled .dio false

/-- `expand(STOP)`: C0 S D0 S C1 S D1 S (R122). -/
def expandStop : List FrEvent :=
  settled .clk false ++ settled .dio false ++ settled .clk true ++ settled .dio true

/-- `bit(v)`: clock low, set data, clock high (R123). -/
def bitSlot (v : Bool) : List FrEvent := settled .clk false ++ settled .dio v ++ settled .clk true

/-- `ack`: one clock pulse, the data line untouched and unread (R124). -/
def ackSlot : List FrEvent := settled .clk false ++ settled .clk true

/-- `expand(WRBYTE b)`: eight bits, least significant first, and the acknowledge slot (R123). -/
def expandWrbyte (b : Byte) : List FrEvent :=
  bitSlot (b.getLsbD 0) ++ bitSlot (b.getLsbD 1) ++ bitSlot (b.getLsbD 2) ++ bitSlot (b.getLsbD 3) ++
    bitSlot (b.getLsbD 4) ++ bitSlot (b.getLsbD 5) ++ bitSlot (b.getLsbD 6) ++ bitSlot (b.getLsbD 7) ++ ackSlot

/-- `expand(SENDFRAME b)` (R140). -/
def expandSendframe (b : Byte) : List FrEvent := expandStart ++ expandWrbyte b ++ expandStop

/-- The byte transmissions of a list of bytes, with nothing between them (R142). -/
def expandBytes : List Byte → List FrEvent
  | [] => []
  | b :: bs => expandWrbyte b ++ expandBytes bs

/-- `frame(bs)` (R142). -/
def frame (bs : List Byte) : List FrEvent := expandStart ++ expandBytes bs ++ expandStop

/-- The three frames of a refresh, each as its bytes (30_encoding.md R101). -/
def refreshFrames (df : Four Byte) : List (List Byte) := [[0x40], 0xC0 :: fourList df, [0x8F]]

/-- The frames of a list, one after the other (R144). -/
def expandFrames : List (List Byte) → List FrEvent
  | [] => []
  | f :: fs => frame f ++ expandFrames fs

/-- `expand(RENDER m s c)` from its DigitFrame (R143). -/
def expandRefresh (df : Four Byte) : List FrEvent := expandFrames (refreshFrames df)

/-- `expand(cmd)` of a command; nothing for what is no framer command or has no DigitFrame. -/
def expand : Instr → List FrEvent
  | .start => expandStart
  | .stop => expandStop
  | .wrbyte b => expandWrbyte b
  | .sendframe b => expandSendframe b
  | .render m s c => ((digits m s c).map expandRefresh).getD []
  | .scan => []
  | .busDataAutoinc => []
  | .busAddr0 => []
  | .busDisplayOn => []
  | .seg0 => []
  | .seg1 => []
  | .seg2 => []
  | .seg3 => []
  | .seg4 => []
  | .seg5 => []
  | .seg6 => []
  | .seg7 => []
  | .seg8 => []
  | .seg9 => []
  | .colonBit _ => []
  | .key1 => []
  | .key2 => []
  | .key3 => []
  | .keyA => []
  | .key4 => []
  | .key5 => []
  | .key6 => []
  | .keyB => []
  | .key7 => []
  | .key8 => []
  | .key9 => []
  | .keyC => []
  | .keyStar => []
  | .key0 => []
  | .keyHash => []
  | .keyD => []
  | .keyNone => []

/-- `expand` of the command a word decodes to. -/
def expandWord (w : Word) : List FrEvent := ((verdictInstr (decodeWord w)).map expand).getD []

/-! ## Counts (41_framer_commands.md R148, 70_reset_and_hazards.md R285) -/

/-- Whether an event is a pin write. -/
def isWrite : FrEvent → Bool
  | .write _ _ => true
  | .settle => false

/-- The number of pin writes in a list of framer events. -/
def writeCount (es : List FrEvent) : Nat := es.countP isWrite

/-- The number of settle waits in a list of framer events. -/
def settleCount (es : List FrEvent) : Nat := es.countP fun e => !isWrite e

/-- The total time of the waits in block clocks (00_scope.md R8). -/
def waitClocks (es : List FrEvent) : Nat := settleCount es * Config.tSettle

end Sys2Proof.Machine
end

