-- ==== Sys2Proof/Machine/Counters.lean ====
section
/-! DEFINITION. The register-level realisation of `FQ` (10_state.md R30, phase order 40_framer_primitives.md R128): the five
counters with SHR select the event to perform, and each performed event advances them. The model keeps it beside FQ, which
is the normative form (assumption 11). -/

namespace Sys2Proof.Machine

/-- The bytes of frame `ffr` of the command in `FCMD` (40_framer_primitives.md R128, 30_encoding.md R101). -/
def frameBytes (fcmd : Word) (df : Four Byte) (ffr : BitVec 2) : List Byte :=
  match (opField fcmd).toNat with
  | 3 => [byteField fcmd]
  | 4 => [byteField fcmd]
  | 5 => (refreshFrames df).getD ffr.toNat []
  | _ => []

/-- The pin writes of a phase, `bit` being the data bit of a bit slot (10_state.md R30). -/
def phaseWrites (bit : Bool) : Phase → List (Line × Bool)
  | .idle => []
  | .start => [(.clk, true), (.dio, true), (.dio, false)]
  | .byte => [(.clk, false), (.dio, bit), (.clk, true)]
  | .ack => [(.clk, false), (.clk, true)]
  | .stop => [(.clk, false), (.dio, false), (.clk, true), (.dio, true)]

/-- The last value of `FSUB` in a phase: two events for each pin write (10_state.md R30). -/
def lastSub (p : Phase) : Nat := 2 * (phaseWrites false p).length - 1

/-- The event the counters select: even values of `FSUB` are pin writes, odd values the waits after them (R30). -/
def counterEvent (c : FrameCounters) (shr : Byte) : Option FrEvent :=
  match (phaseWrites (shr.getLsbD c.fbit.toNat) c.fph)[c.fsub.toNat / 2]? with
  | some (l, v) => some (if c.fsub.getLsbD 0 then .settle else .write l v)
  | none => none

/-- Going on to byte `n` of the frame, which loads `SHR`, or to the stop condition after the last byte. -/
def enterByte (bytes : List Byte) (n : BitVec 3) (c : FrameCounters) (shr : Byte) : FrameCounters × Byte :=
  match bytes[n.toNat]? with
  | some b => ({ c with fph := .byte, fbyte := n, fbit := 0, fsub := 0 }, b)
  | none => ({ c with fph := .stop, fbit := 0, fsub := 0 }, shr)

/-- The counters when a command is accepted (phase order of R128). -/
def counterStart (fcmd : Word) (df : Four Byte) (shr : Byte) : FrameCounters × Byte :=
  match (opField fcmd).toNat with
  | 1 => ({ FrameCounters.zero with fph := .start }, shr)
  | 2 => ({ FrameCounters.zero with fph := .stop }, shr)
  | 3 => enterByte (frameBytes fcmd df 0) 0 FrameCounters.zero shr
  | 4 => ({ FrameCounters.zero with fph := .start }, shr)
  | 5 => ({ FrameCounters.zero with fph := .start }, shr)
  | _ => (FrameCounters.zero, shr)

/-- The counters at the end of a phase (phase order of R128). -/
def counterNextPhase (fcmd : Word) (df : Four Byte) (c : FrameCounters) (shr : Byte) : FrameCounters × Byte :=
  match c.fph with
  | .idle => (c, shr)
  | .start => if opField fcmd = 1 then (FrameCounters.zero, shr) else enterByte (frameBytes fcmd df c.ffr) 0 c shr
  | .byte =>
    if c.fbit = 7 then ({ c with fph := .ack, fbit := 0, fsub := 0 }, shr)
    else ({ c with fbit := c.fbit + 1, fsub := 0 }, shr)
  | .ack =>
    if opField fcmd = 3 then (FrameCounters.zero, shr)
    else enterByte (frameBytes fcmd df c.ffr) (c.fbyte + 1) c shr
  | .stop =>
    if opField fcmd = 5 ∧ c.ffr.toNat < 2 then ({ FrameCounters.zero with fph := .start, ffr := c.ffr + 1 }, shr)
    else (FrameCounters.zero, shr)

/-- The counters and `SHR` after the event they select has been performed. -/
def counterAdvance (fcmd : Word) (df : Four Byte) (c : FrameCounters) (shr : Byte) : FrameCounters × Byte :=
  if c.fsub.toNat < lastSub c.fph then ({ c with fsub := c.fsub + 1 }, shr)
  else counterNextPhase fcmd df c shr

/-- The next `n` events of the register-level realisation. -/
def counterEvents (fcmd : Word) (df : Four Byte) : Nat → FrameCounters → Byte → List FrEvent
  | 0, _, _ => []
  | n + 1, c, shr =>
    match counterEvent c shr with
    | none => []
    | some e =>
      e :: counterEvents fcmd df n (counterAdvance fcmd df c shr).1 (counterAdvance fcmd df c shr).2

end Sys2Proof.Machine
end

