-- ==== Sys2Proof/Machine/Flags.lean ====
section
/-! DEFINITION. The status signals: F_BUSY and K_BUSY are the only status bits (10_state.md R36); the host side of the
command port is computed from State (10_state.md R37). -/

namespace Sys2Proof.Machine

/-- `f_ready = not F_BUSY` (10_state.md R37). -/
def fReady (s : State) : Bool := !s.fBusy

/-- `k_ready = not K_BUSY` (10_state.md R37). -/
def kReady (s : State) : Bool := !s.kBusy

/-- Whether the consumer of an instruction takes it now: a unit takes a command only when idle (40_framer_primitives.md
R120, 42_keypad_scanner.md R161); a byte of a frame and a key result never wait. -/
def ready (i : Instr) (s : State) : Bool :=
  match i.consumer with
  | .framer => fReady s
  | .scanner => kReady s
  | .display => true
  | .host => true

/-! ## The command port (10_state.md R37, 43_host_stopwatch.md R204; assumption 23)

The other signals of R37 are registers of State: `f_done`, `k_done` and `KEY`. -/

/-- The word a position of the foreground presents. -/
def Foreground.word : Foreground → Option Word
  | .issue w _ => some w
  | .bootInit => none
  | .bootVars => none
  | .wait _ => none
  | .enableTick => none
  | .readKey => none
  | .dispatch _ => none
  | .resetMinutes => none
  | .resetSeconds => none
  | .resetColon => none

/-- The word a position of the tick handler presents. -/
def Handler.word : Handler → Option Word
  | .issue w => some w
  | .idle => none
  | .readRun => none
  | .incSeconds => none
  | .zeroSeconds => none
  | .incMinutes => none
  | .zeroMinutes => none
  | .toggleColon => none
  | .compose => none
  | .wait => none

/-- `cmd[15:0]` while it is valid: the word the driving host presents. Of the reference host's threads it is the running
one that presents: the handler, and the foreground while no handler runs (60_exceptions.md R232). -/
def cmdPort (s : State) : Option Word :=
  match s.host with
  | .program => s.program.head?
  | .reference => if s.handler = .idle then s.fg.word else s.handler.word

/-- `cmd_valid`. -/
def cmdValid (s : State) : Bool := (cmdPort s).isSome

end Sys2Proof.Machine
end

