-- ==== Sys2Proof/Machine/Monitor.lean ====
section
/-! DEFINITION. The reference observers of the bus (20_memory.md R66 to R69, 00_scope.md R11): the level waveform, the bus
monitor one edge at a time and over a whole waveform, and the display sink frame by frame. -/

namespace Sys2Proof.Machine

/-! ## Memory of the display -/

/-- Reading one byte; an unlisted address is unknown (20_memory.md R68). -/
def Memory.read : Memory → Nat → Option Byte
  | [], _ => none
  | (x, y) :: rest, a => if x = a then some y else Memory.read rest a

/-- Writing one byte, keeping the cells sorted. -/
def Memory.write : Memory → Nat → Byte → Memory
  | [], a, b => [(a, b)]
  | (x, y) :: rest, a, b =>
    if a < x then (a, b) :: (x, y) :: rest
    else if a = x then (a, b) :: rest
    else (x, y) :: Memory.write rest a b

/-- Writing bytes to consecutive addresses: the burst (20_memory.md R65). -/
def Memory.writeFrom : Memory → Nat → List Byte → Memory
  | m, _, [] => m
  | m, a, b :: bs => Memory.writeFrom (m.write a b) (a + 1) bs

/-- The number of addresses of the display address space (20_memory.md R63). -/
def displaySize : Nat := 4

/-! ## The bus monitor (20_memory.md R66) -/

/-- `acc[n] <- v`. -/
def setBit (acc : Byte) (n : Nat) (v : Bool) : Byte :=
  if v then acc ||| (1#8 <<< n) else acc &&& ~~~(1#8 <<< n)

/-- The verdict `malformed`, which ends the reading. -/
def markMalformed (m : Monitor) : Monitor := { m with malformed := true }

/-- The monitor on a start condition. -/
def monitorStart (m : Monitor) : Monitor :=
  if m.inframe then markMalformed m else { m with inframe := true, cur := [], nbits := 0, acc := 0 }

/-- The monitor on a stop condition: ignored outside a frame; the stop's own clock pulse is the one stray bit (R67). -/
def monitorStop (m : Monitor) : Monitor :=
  if m.inframe then
    if m.nbits = 1 then { m with out := m.out ++ [m.cur], inframe := false } else markMalformed m
  else m

/-- The monitor on a rising clock edge, `d` being the data level: a data bit, or the acknowledge slot. -/
def monitorRise (d : Bool) (m : Monitor) : Monitor :=
  if m.inframe then
    if m.nbits < 8 then { m with acc := setBit m.acc m.nbits d, nbits := m.nbits + 1 }
    else { m with cur := m.cur ++ [m.acc], nbits := 0, acc := 0 }
  else m

/-- The monitor on one pair of consecutive levels `p` to `q`, each (CLK, DIO). -/
def monitorEdge (p q : Bool × Bool) (m : Monitor) : Monitor :=
  if m.malformed then m
  else if p.1 && q.1 && p.2 && !q.2 then monitorStart m
  else if p.1 && q.1 && !p.2 && q.2 then monitorStop m
  else if !p.1 && q.1 then monitorRise q.2 m
  else m

/-- The monitor over the rest of a waveform whose last entry read is `p`. -/
def monitorFold (m : Monitor) (p : Bool × Bool) : List (Bool × Bool) → Monitor
  | [] => m
  | q :: qs => monitorFold (monitorEdge p q m) q qs

/-- The monitor's answer at the end of a waveform: the frames, or no answer for `malformed`. -/
def monitorVerdict (m : Monitor) : Option (List (List Byte)) :=
  if m.malformed || m.inframe then none else some m.out

/-- The decoded frames of a whole waveform (00_scope.md R11 item (3)). -/
def decodedFrames : List (Bool × Bool) → Option (List (List Byte))
  | [] => some []
  | p :: qs => monitorVerdict (monitorFold Monitor.initial p qs)

/-! ## The level waveform (00_scope.md R11 item (2)) -/

/-- The pair (CLK, DIO) after one framer event. -/
def levelsAfter (p : Bool × Bool) : FrEvent → Bool × Bool
  | .write .clk v => (v, p.2)
  | .write .dio v => (p.1, v)
  | .settle => p

/-- The entries of the waveform after the entry `p`, without those equal to their predecessor. -/
def waveTail (p : Bool × Bool) : List FrEvent → List (Bool × Bool)
  | [] => []
  | e :: es =>
    if levelsAfter p e = p then waveTail p es else levelsAfter p e :: waveTail (levelsAfter p e) es

/-- The level waveform of a list of framer events from the levels `p`. -/
def waveform (p : Bool × Bool) (es : List FrEvent) : List (Bool × Bool) := p :: waveTail p es

/-- The levels after a list of framer events. -/
def finalLevels (p : Bool × Bool) : List FrEvent → Bool × Bool
  | [] => p
  | e :: es => finalLevels (levelsAfter p e) es

/-- The framer's events of a trace, in order (10_state.md R40: the projection onto one unit). -/
def framerEvents : List Event → List FrEvent
  | [] => []
  | .fr e :: es => e :: framerEvents es
  | .rowWrite _ :: es => framerEvents es
  | .colSample _ :: es => framerEvents es
  | .debounce :: es => framerEvents es
  | .ret _ :: es => framerEvents es
  | .issue _ :: es => framerEvents es
  | .doneFramer :: es => framerEvents es

/-- The events of one source in a trace (10_state.md R40). -/
def eventsOf (u : EventSource) (es : List Event) : List Event := es.filter fun e => e.source = u

/-! ## The display sink over whole frames (20_memory.md R68) -/

/-- What the sink of R68 holds. -/
structure SinkView where
  mode : SinkMode
  on : SinkOn
  dm : Memory
  deriving DecidableEq, Repr

/-- R68 on one frame; no answer is its `refuse`. -/
def sinkFrame (k : SinkView) : List Byte → Option SinkView
  | [] => none
  | b :: ds =>
    if b = 0x40 ∧ ds = [] then some { k with mode := .autoinc }
    else if b = 0xC0 then
      if k.mode = .autoinc ∧ ds.length ≤ displaySize then some { k with dm := k.dm.writeFrom 0 ds } else none
    else if b = 0x8F ∧ ds = [] then some { k with on := .on }
    else none

/-- R68 on frames in order. -/
def sinkFrames (k : SinkView) : List (List Byte) → Option SinkView
  | [] => some k
  | f :: fs =>
    match sinkFrame k f with
    | some k' => sinkFrames k' fs
    | none => none

/-- The sink of a state as R68 has it. -/
def sinkView (s : State) : SinkView := { mode := s.sink.mode, on := s.sink.on, dm := s.dm }

end Sys2Proof.Machine
end

