-- ==== Sys2Proof/Machine/Ops.lean ====
section
/-! DEFINITION. The named operations over the state, each written once: pin writes, waits, samples and returns (00_scope.md
R13), the acceptance of commands, the display's store and refusal, and the entry and end of the one interrupt. -/

namespace Sys2Proof.Machine

/-! ## Trace and pins -/

/-- Append one event to the trace (10_state.md R40). -/
def record (e : Event) (s : State) : State := { s with trace := s.trace ++ [e] }

/-- The levels (CLK, DIO) the block drives. -/
def levels (s : State) : Bool × Bool := (s.clk, s.dio)

/-- The bus monitor sees the levels `q` after those of the state; a frame it completes goes to the display sink
(20_memory.md R66, R68). DESIGN CHOICE (assumption 24): the frame goes there at its stop condition, while R66 gives the
monitor's answer only at the end of the waveform; what the sink holds in a run whose waveform has no answer, the spec does not
say. -/
def observe (q : Bool × Bool) (s : State) : State :=
  let m := monitorEdge (levels s) q s.mon
  { s with
    clk := q.1
    dio := q.2
    mon := m
    sink := { s.sink with inbox := s.sink.inbox ++ m.out.drop s.mon.out.length } }

/-- `PinWrite(L, v)` (00_scope.md R13). -/
def pinWrite (l : Line) (v : Bool) (s : State) : State :=
  record (.fr (.write l v)) (observe (levelsAfter (levels s) (.write l v)) s)

/-- Perform one framer event: a pin write, or a settle wait, which changes no other state (R127). -/
def performFr (e : FrEvent) (s : State) : State :=
  match e with
  | .write l v => pinWrite l v s
  | .settle => record (.fr .settle) s

/-- `RowWrite(v4)` (00_scope.md R13). -/
def rowWrite (v : BitVec 4) (s : State) : State := record (.rowWrite v) { s with row := v }

/-- `KCOLS <- ColSample()` with the environment's answer `v` (00_scope.md R13, 42_keypad_scanner.md R163). -/
def colSample (v : BitVec 4) (s : State) : State := record (.colSample v) { s with kcols := v }

/-- `Wait(T_DEBOUNCE)`: one event, no other state (00_scope.md R13). -/
def waitDebounce (s : State) : State := record .debounce s

/-! ## Completion pulses -/

/-- The completion pulses of the step before end (10_state.md R37; assumption 8). -/
def endPulses (s : State) : State := { s with fDone := false, kDone := false }

/-- The framer's completion: `F_BUSY <- 0`, and the pulse `f_done` is given to the host (40_framer_primitives.md R128). -/
def completeFramer (s : State) : State := { s with fBusy := false, fDone := true, fNoted := true }

/-- `KEY <- k; Ret(k)`, end of the scan: `K_BUSY <- 0`, and the pulse `k_done` is given to the host (42_keypad_scanner.md
R167). -/
def returnKey (k : Byte) (s : State) : State :=
  record (.ret k) { s with key := k, kBusy := false, kDone := true, kNoted := true, kst := .idle }

/-! ## Acceptance -/

/-- Acceptance of a framer command: FCMD, FQ, F_BUSY, the DigitFrame (which only RENDER changes), the counters, and the
host-side event `ISSUE(w)`; no pin event (40_framer_primitives.md R120, 10_state.md R40; assumptions 8, 9, 11). -/
def loadFramer (w : Word) (es : List FrEvent) (df : Four Byte) (s : State) : State :=
  record (.issue w)
    { s with
      fcmd := w
      fq := es
      df := df
      fBusy := true
      fNoted := false
      ctr := (counterStart w df s.shr).1
      shr := (counterStart w df s.shr).2 }

/-- A framer command presented to the block: accepted when the framer is idle, else it waits (R120). -/
def acceptFramer (w : Word) (es : List FrEvent) (df : Four Byte) (s : State) : Out :=
  if s.fBusy then .next s else .next (loadFramer w es df s)

/-- Acceptance of SCAN: K_BUSY, KROW and KST, and the host-side event (42_keypad_scanner.md R161). -/
def loadScanner (s : State) : State :=
  record (.issue scanWord) { s with kBusy := true, kNoted := false, krow := 0, kst := .drive }

/-! ## The display sink (20_memory.md R68) -/

/-- The sink's `refuse`: nothing changes but its mark. The block goes on (treatment U11; assumption 6). -/
def sinkRefuse (s : State) : State := { s with sink := { s.sink with refused := true } }

/-- Store one data byte of the burst at the next display address (20_memory.md R65, R68). -/
def storeData (b : Byte) (s : State) : State :=
  if s.sink.addr < displaySize then
    { s with dm := s.dm.write s.sink.addr b, sink := { s.sink with addr := s.sink.addr + 1 } }
  else sinkRefuse s

/-! ## The host's interrupt

The block raises and takes no exception (60_exceptions.md R220, R226, R230). The one interrupt of the system is the Timebase
tick, taken by the host: no saved state, vector or mode is named for it (R234). -/

/-- The threads of the reference host act only in a run that it drives (assumption 4). -/
def handlerRuns (s : State) : Bool := s.host = .reference

/-- The tick fires. Enabled and with no handler running, the handler starts; a tick that fires while the handler runs is
dropped (60_exceptions.md R231, R234, R236; assumption 13). -/
def takeTick (s : State) : State :=
  if s.host = .reference ∧ s.tickEnabled = true ∧ s.handler = .idle then { s with handler := .readRun } else s

/-- The handler ends and the foreground continues where it was (60_exceptions.md R235). -/
def endTick (s : State) : State := { s with handler := .idle }

/-- The foreground may act: no handler runs (60_exceptions.md R232), in a run that the reference host drives. -/
def foregroundRuns (s : State) : Bool := s.host = .reference ∧ s.handler = .idle

/-! ## The environment -/

/-- The bit of one cell in the set of pressed cells (42_keypad_scanner.md R174). -/
def cellMask (r c : Fin 4) : BitVec 16 := 1#16 <<< cellIndex r c

/-- The operator presses a key. -/
def pressKey (r c : Fin 4) (s : State) : State := { s with pressed := s.pressed ||| cellMask r c }

/-- The operator releases a key. -/
def releaseKey (r c : Fin 4) (s : State) : State := { s with pressed := s.pressed &&& ~~~cellMask r c }

/-- A peripheral becomes ready (60_exceptions.md R223). -/
def readyPeripheral (s : State) : State := { s with periphReady := true }

/-- `rst`: the block and the host take their reset values, a command in flight is abandoned and the trace starts again
(70_reset_and_hazards.md R260, R262, 10_state.md R42). The observers, the keys, the choice of host, the outside host's
words and the moves are outside the block and stay; a reset inside a frame or a framer command leaves the monitor malformed (treatment U19;
assumption 14). -/
def resetMachine (s : State) : State :=
  { State.reset with
    mon := if s.mon.inframe || s.fBusy then markMalformed s.mon else s.mon
    sink := s.sink
    dm := s.dm
    pressed := s.pressed
    host := s.host
    program := s.program
    moves := s.moves
    draws := s.draws }

end Sys2Proof.Machine
end

