-- ==== Sys2Proof/Machine/Display.lean ====
section
/-! DEFINITION. The display sink as the consumer of bus command bytes and segment bytes (30_encoding.md R90, 20_memory.md
R68): the meanings of those rows, and the byte-by-byte reading of the frames the monitor decodes (assumptions 5, 6, 7). -/

namespace Sys2Proof.Machine

/-- BUS_DATA_AUTOINC, alone in its frame: `mode <- autoinc`; in a longer frame the sink refuses (20_memory.md R68). -/
def execBusDataAutoinc (s : State) : Out :=
  if s.sink.rest.isEmpty then .next { s with sink := { s.sink with mode := .autoinc } } else .next (sinkRefuse s)

/-- BUS_ADDR0: the burst starts at display address 0; before a mode command, or with more than four bytes to come, the sink
refuses (20_memory.md R68). -/
def execBusAddr0 (s : State) : Out :=
  if s.sink.mode = .autoinc ∧ s.sink.rest.length ≤ displaySize then
    .next { s with sink := { s.sink with addr := 0 } }
  else .next (sinkRefuse s)

/-- BUS_DISPLAY_ON, alone in its frame: `on <- true`; in a longer frame the sink refuses (20_memory.md R68). -/
def execBusDisplayOn (s : State) : Out :=
  if s.sink.rest.isEmpty then .next { s with sink := { s.sink with on := .on } } else .next (sinkRefuse s)

/-- SEG_0: the segment byte of the digit 0 is stored at the next display address (20_memory.md R65, R68; 30_encoding.md R102). -/
def execSeg0 (s : State) : Out := .next (storeData 0x3F s)

/-- SEG_1: the segment byte of the digit 1 is stored at the next display address (20_memory.md R65, R68; 30_encoding.md R102). -/
def execSeg1 (s : State) : Out := .next (storeData 0x06 s)

/-- SEG_2: the segment byte of the digit 2 is stored at the next display address (20_memory.md R65, R68; 30_encoding.md R102). -/
def execSeg2 (s : State) : Out := .next (storeData 0x5B s)

/-- SEG_3: the segment byte of the digit 3 is stored at the next display address (20_memory.md R65, R68; 30_encoding.md R102). -/
def execSeg3 (s : State) : Out := .next (storeData 0x4F s)

/-- SEG_4: the segment byte of the digit 4 is stored at the next display address (20_memory.md R65, R68; 30_encoding.md R102). -/
def execSeg4 (s : State) : Out := .next (storeData 0x66 s)

/-- SEG_5: the segment byte of the digit 5 is stored at the next display address (20_memory.md R65, R68; 30_encoding.md R102). -/
def execSeg5 (s : State) : Out := .next (storeData 0x6D s)

/-- SEG_6: the segment byte of the digit 6 is stored at the next display address (20_memory.md R65, R68; 30_encoding.md R102). -/
def execSeg6 (s : State) : Out := .next (storeData 0x7D s)

/-- SEG_7: the segment byte of the digit 7 is stored at the next display address (20_memory.md R65, R68; 30_encoding.md R102). -/
def execSeg7 (s : State) : Out := .next (storeData 0x07 s)

/-- SEG_8: the segment byte of the digit 8 is stored at the next display address (20_memory.md R65, R68; 30_encoding.md R102). -/
def execSeg8 (s : State) : Out := .next (storeData 0x7F s)

/-- SEG_9: the segment byte of the digit 9 is stored at the next display address (20_memory.md R65, R68; 30_encoding.md R102). -/
def execSeg9 (s : State) : Out := .next (storeData 0x6F s)

/-- COLON_BIT with its low seven bits: a byte with the colon bit is stored at the next display address (20_memory.md R65, R68;
30_encoding.md R103). -/
def execColonBit (low : BitVec 7) (s : State) : Out := .next (storeData (0x80 ||| low.zeroExtend 8) s)

/-- The code the sink reads next, with the state in which it has been read: a data byte of the frame being read, else the
first byte of the next frame. A sink that has refused reads nothing more. -/
def fetchDisplay (s : State) : Option (Code × State) :=
  if s.sink.refused then none
  else
    match s.sink.rest, s.sink.inbox with
    | b :: bs, _ => some (.data b, { s with sink := { s.sink with rest := bs } })
    | [], (b :: bs) :: fs => some (.bus b, { s with sink := { s.sink with rest := bs, inbox := fs } })
    | [], [] :: _ => none
    | [], [] => none

/-- The sink's turn when it reads no byte: an empty frame is refused (20_memory.md R68), and with nothing received nothing
happens. -/
def displayIdle (s : State) : State :=
  if s.sink.refused then s
  else
    match s.sink.rest, s.sink.inbox with
    | [], [] :: fs => sinkRefuse { s with sink := { s.sink with inbox := fs } }
    | [], [] => s
    | [], (_ :: _) :: _ => s
    | _ :: _, _ => s

end Sys2Proof.Machine
end

