-- ==== Sys2Proof/Machine/Framer.lean ====
section
/-! DEFINITION. The framer: the meanings of its five commands, which are their acceptance (40_framer_primitives.md R120), and
its step (R127, R128). -/

namespace Sys2Proof.Machine

/-- START (40_framer_primitives.md R121). -/
def execStart (s : State) : Out := acceptFramer startWord expandStart s.df s

/-- STOP (40_framer_primitives.md R122). -/
def execStop (s : State) : Out := acceptFramer stopWord expandStop s.df s

/-- WRBYTE b (40_framer_primitives.md R123). -/
def execWrbyte (b : Byte) (s : State) : Out := acceptFramer (wrbyteWord b) (expandWrbyte b) s.df s

/-- SENDFRAME b (41_framer_commands.md R140). -/
def execSendframe (b : Byte) (s : State) : Out := acceptFramer (sendframeWord b) (expandSendframe b) s.df s

/-- RENDER m, s, c: outside the operand domain it is refused (41_framer_commands.md R146); else acceptance also writes the
DigitFrame (R141, R143). -/
def execRender (m sec : BitVec 6) (c : Bool) (s : State) : Out :=
  if timeInDomain m && timeInDomain sec then
    match digits m sec c with
    | some df => acceptFramer (renderWord m sec c) (expandRefresh df) df s
    | none => .fault .segIndex
  else .refused .renderOutOfDomain

/-- What follows a performed event: `FQ` loses its head, the counters advance, and the step that empties `FQ` completes the
command (40_framer_primitives.md R127, R128). -/
def framerAfter (rest : List FrEvent) (s : State) : State :=
  let c := counterAdvance s.fcmd s.df s.ctr s.shr
  let t := { s with fq := rest, ctr := c.1, shr := c.2 }
  if rest.isEmpty then record .doneFramer (completeFramer t) else t

/-- One step of the framer: perform the head of `FQ`; nothing while `FQ` is empty (40_framer_primitives.md R127). -/
def framerStep (s : State) : State :=
  match s.fq with
  | [] => s
  | e :: rest => framerAfter rest (performFr e s)

/-- `n` steps of the framer, the pulses of the step before ending with each. -/
def framerRun : Nat → State → State
  | 0, s => s
  | n + 1, s => framerRun n (framerStep (endPulses s))

end Sys2Proof.Machine
end

