-- ==== Sys2Proof/Machine/HostSide.lean ====
section
/-! DEFINITION. The reference host (43_host_stopwatch.md, 70_reset_and_hazards.md R266): the dispatch of key results, which
are the meanings of the KEY rows, the foreground's other actions, and the tick handler. -/

namespace Sys2Proof.Machine

/-! ## Key dispatch (43_host_stopwatch.md R191) -/

/-- A result with no defined action changes nothing (R195). -/
def noKeyAction (s : State) : Out := .next s

/-- KEY_A, "Start": `RunState <- Running`, nothing else (R192). -/
def execKeyA (s : State) : Out := .next { s with runState := .running }

/-- KEY_B, "Stop": `RunState <- Stopped`, nothing else (R193). -/
def execKeyB (s : State) : Out := .next { s with runState := .stopped }

/-- KEY_C, "Reset": `RunState <- Stopped` first; the foreground then clears minutes and seconds and redisplays, one atomic
action a step (R194, 20_memory.md R78; assumption 12). -/
def execKeyC (s : State) : Out := .next { s with runState := .stopped, fg := .resetMinutes }

/-- KEY_1: no defined action (R195). -/
def execKey1 (s : State) : Out := noKeyAction s

/-- KEY_2: no defined action (R195). -/
def execKey2 (s : State) : Out := noKeyAction s

/-- KEY_3: no defined action (R195). -/
def execKey3 (s : State) : Out := noKeyAction s

/-- KEY_4: no defined action (R195). -/
def execKey4 (s : State) : Out := noKeyAction s

/-- KEY_5: no defined action (R195). -/
def execKey5 (s : State) : Out := noKeyAction s

/-- KEY_6: no defined action (R195). -/
def execKey6 (s : State) : Out := noKeyAction s

/-- KEY_7: no defined action (R195). -/
def execKey7 (s : State) : Out := noKeyAction s

/-- KEY_8: no defined action (R195). -/
def execKey8 (s : State) : Out := noKeyAction s

/-- KEY_9: no defined action (R195). -/
def execKey9 (s : State) : Out := noKeyAction s

/-- KEY_STAR: no defined action (R195). -/
def execKeyStar (s : State) : Out := noKeyAction s

/-- KEY_0: no defined action (R195). -/
def execKey0 (s : State) : Out := noKeyAction s

/-- KEY_HASH: no defined action (R195). -/
def execKeyHash (s : State) : Out := noKeyAction s

/-- KEY_D: no defined action (R195). -/
def execKeyD (s : State) : Out := noKeyAction s

/-- KEY_NONE: no defined action (R195). -/
def execKeyNone (s : State) : Out := noKeyAction s

/-! ## Foreground (43_host_stopwatch.md R199, 70_reset_and_hazards.md R266) -/

/-- The word of the boot's `RENDER 0, 0, COLON_INIT` (70_reset_and_hazards.md R266). -/
def bootWord : Word := renderWord 0 0 Config.colonInit

/-- The loop's head: issue SCAN (43_host_stopwatch.md R199). -/
def loopHead : Foreground := .issue scanWord .scan

/-- The completion a call waits for has been given to the host (43_host_stopwatch.md R204; assumption 8). -/
def callDone (c : Call) (s : State) : Bool :=
  match c with
  | .boot => s.fNoted
  | .scan => s.kNoted
  | .reset => s.fNoted

/-- Where the foreground goes when a call has completed. -/
def afterCall : Call → Foreground
  | .boot => .enableTick
  | .scan => .readKey
  | .reset => loopHead

/-- The host variables take their initial values (43_host_stopwatch.md R201). -/
def initHostVars (s : State) : State :=
  { s with runState := .stopped, minutes := 0, seconds := 0, colonPhase := Config.colonInit }

/-- One atomic action of the foreground other than an `ISSUE` and a dispatch, which present a code (assumption 12). -/
def foregroundStep (s : State) : State :=
  match s.fg with
  | .bootInit => if s.periphReady then { s with fg := .bootVars } else s
  | .bootVars => { initHostVars s with fg := .issue bootWord .boot }
  | .issue _ _ => s
  | .wait c => if callDone c s then { s with fg := afterCall c } else s
  | .enableTick => { s with tickEnabled := true, fg := loopHead }
  | .readKey => { s with fg := .dispatch s.key }
  | .dispatch _ => s
  | .resetMinutes => { s with minutes := 0, fg := .resetSeconds }
  | .resetSeconds => { s with seconds := 0, fg := .resetColon }
  | .resetColon => { s with fg := .issue (renderWord 0 0 s.colonPhase) .reset }

/-- The code the foreground presents, with the state in which its consumer has taken it: an `ISSUE` goes on to the wait, a
dispatch goes back to the loop's head (43_host_stopwatch.md R199, R204). -/
def fetchForeground (s : State) : Option (Code × State) :=
  if foregroundRuns s then
    match s.fg with
    | .issue w c => some (.word w, { s with fg := .wait c })
    | .dispatch k => some (.key k, { s with fg := loopHead })
    | .bootInit => none
    | .bootVars => none
    | .wait _ => none
    | .enableTick => none
    | .readKey => none
    | .resetMinutes => none
    | .resetSeconds => none
    | .resetColon => none
  else none

/-! ## Tick handler (43_host_stopwatch.md R196 to R198) -/

/-- The word of the tick's redisplay, from the updated variables (43_host_stopwatch.md R198). -/
def tickWord (s : State) : Word :=
  renderWord (BitVec.ofNat 6 s.minutes) (BitVec.ofNat 6 s.seconds) s.colonPhase

/-- One action of the tick handler other than its `ISSUE` (43_host_stopwatch.md R196, R197). -/
def handlerStep (s : State) : State :=
  match s.handler with
  | .idle => s
  | .readRun =>
    match s.runState with
    | .stopped => endTick s
    | .running => { s with handler := .incSeconds }
  | .incSeconds =>
    { s with
      seconds := s.seconds + 1
      handler := if s.seconds + 1 = 60 then .zeroSeconds else .toggleColon }
  | .zeroSeconds => { s with seconds := 0, handler := .incMinutes }
  | .incMinutes =>
    { s with
      minutes := s.minutes + 1
      handler := if s.minutes + 1 = 60 then .zeroMinutes else .toggleColon }
  | .zeroMinutes => { s with minutes := 0, handler := .toggleColon }
  | .toggleColon => { s with colonPhase := !s.colonPhase, handler := .compose }
  | .compose => { s with handler := .issue (tickWord s) }
  | .issue _ => s
  | .wait => if s.fNoted then endTick s else s

/-- `n` actions of the tick handler, the pulses of the step before ending with each. At its `ISSUE` the handler's move presents
the word (`fetchHandler`), so this follows the machine up to there. -/
def handlerRun : Nat → State → State
  | 0, s => s
  | n + 1, s => handlerRun n (handlerStep (endPulses s))

/-- The code the tick handler presents, with the state in which the framer has accepted it. -/
def fetchHandler (s : State) : Option (Code × State) :=
  if handlerRuns s then s.handler.word.map fun w => (.word w, { s with handler := .wait }) else none

end Sys2Proof.Machine
end

