-- ==== Sys2Proof/Machine/Scanner.lean ====
section
/-! DEFINITION. The scanner: the meaning of SCAN, which is its acceptance (42_keypad_scanner.md R161), and the scanner's step
(R162 to R169, R171). -/

namespace Sys2Proof.Machine

/-- SCAN: accepted when the scanner is idle, whatever the framer does; else it waits (42_keypad_scanner.md R161). -/
def execScan (s : State) : Out := if s.kBusy then .next s else .next (loadScanner s)

/-- The position after a sample `v` of row `r` (42_keypad_scanner.md R163, R168). -/
def afterSample (v : BitVec 4) (s : State) : State :=
  if v = 0 then
    if s.krow = 3 then { s with kst := .releaseMiss } else { s with krow := s.krow + 1, kst := .drive }
  else { s with kst := .releaseHit }

/-- One step of the scanner, `v` being the environment's answer should it sample (42_keypad_scanner.md R171). -/
def scannerStep (v : BitVec 4) (s : State) : State :=
  match s.kst with
  | .idle => s
  | .drive => { rowWrite (onehot s.krow) s with kst := .sample }
  | .sample => afterSample v (colSample v s)
  | .releaseHit => { rowWrite 0 s with kst := .debounce }
  | .debounce => { waitDebounce s with kst := .ret }
  | .releaseMiss => { rowWrite 0 s with kst := .ret }
  | .ret => returnKey (scanResult s.krow s.kcols) s

/-- Steps of the scanner with one answer of the environment for each step, the pulses of the step before ending with each. -/
def scannerRun : List (BitVec 4) → State → State
  | [], s => s
  | v :: vs, s => scannerRun vs (scannerStep v (endPulses s))

/-- `n` steps of the scanner with the ideal matrix answering (42_keypad_scanner.md R174). -/
def scannerRunIdeal : Nat → State → State
  | 0, s => s
  | n + 1, s => scannerRunIdeal n (scannerStep (idealSample s.pressed s.row) (endPulses s))

/-! ## The command as a function (42_keypad_scanner.md R170) -/

/-- The trace of a scan from row `r` on, given the environment's answers for the rows not yet scanned. -/
def scanTraceFrom (r : BitVec 2) : List (BitVec 4) → List Event
  | [] => [.rowWrite 0, .ret keyNoneCode]
  | v :: vs =>
    [.rowWrite (onehot r), .colSample v] ++
      if v ≠ 0 then [.rowWrite 0, .debounce, .ret (keymap r (lowest v))] else scanTraceFrom (r + 1) vs

/-- The code a scan from row `r` on returns. -/
def scanKeyFrom (r : BitVec 2) : List (BitVec 4) → Byte
  | [] => keyNoneCode
  | v :: vs => if v ≠ 0 then keymap r (lowest v) else scanKeyFrom (r + 1) vs

end Sys2Proof.Machine
end

