-- ==== Sys2Proof/Machine/Dispatch.lean ====
section
/-! DEFINITION. The meaning of an instruction: one arm per constructor, each one call. -/

namespace Sys2Proof.Machine

def exec (i : Instr) (s : State) : Host.Outcome State Fault Refusal :=
  match i with
  | .start => Sys2Proof.Machine.execStart s
  | .stop => Sys2Proof.Machine.execStop s
  | .wrbyte b => Sys2Proof.Machine.execWrbyte b s
  | .sendframe b => Sys2Proof.Machine.execSendframe b s
  | .render m sec c => Sys2Proof.Machine.execRender m sec c s
  | .scan => Sys2Proof.Machine.execScan s
  | .busDataAutoinc => Sys2Proof.Machine.execBusDataAutoinc s
  | .busAddr0 => Sys2Proof.Machine.execBusAddr0 s
  | .busDisplayOn => Sys2Proof.Machine.execBusDisplayOn s
  | .seg0 => Sys2Proof.Machine.execSeg0 s
  | .seg1 => Sys2Proof.Machine.execSeg1 s
  | .seg2 => Sys2Proof.Machine.execSeg2 s
  | .seg3 => Sys2Proof.Machine.execSeg3 s
  | .seg4 => Sys2Proof.Machine.execSeg4 s
  | .seg5 => Sys2Proof.Machine.execSeg5 s
  | .seg6 => Sys2Proof.Machine.execSeg6 s
  | .seg7 => Sys2Proof.Machine.execSeg7 s
  | .seg8 => Sys2Proof.Machine.execSeg8 s
  | .seg9 => Sys2Proof.Machine.execSeg9 s
  | .colonBit low => Sys2Proof.Machine.execColonBit low s
  | .key1 => Sys2Proof.Machine.execKey1 s
  | .key2 => Sys2Proof.Machine.execKey2 s
  | .key3 => Sys2Proof.Machine.execKey3 s
  | .keyA => Sys2Proof.Machine.execKeyA s
  | .key4 => Sys2Proof.Machine.execKey4 s
  | .key5 => Sys2Proof.Machine.execKey5 s
  | .key6 => Sys2Proof.Machine.execKey6 s
  | .keyB => Sys2Proof.Machine.execKeyB s
  | .key7 => Sys2Proof.Machine.execKey7 s
  | .key8 => Sys2Proof.Machine.execKey8 s
  | .key9 => Sys2Proof.Machine.execKey9 s
  | .keyC => Sys2Proof.Machine.execKeyC s
  | .keyStar => Sys2Proof.Machine.execKeyStar s
  | .key0 => Sys2Proof.Machine.execKey0 s
  | .keyHash => Sys2Proof.Machine.execKeyHash s
  | .keyD => Sys2Proof.Machine.execKeyD s
  | .keyNone => Sys2Proof.Machine.execKeyNone s

end Sys2Proof.Machine
end

