-- ==== Sys2Proof/Machine/Fetch.lean ====
section
/-! DEFINITION. What a move does around an instruction: choosing the move, fetching the code it presents, the moves that
present none, and placing a code where it is fetched next. -/

namespace Sys2Proof.Machine

/-- The next move: the first one listed, else the free choice (assumption 2). -/
def nextMove (s : State) : Move := s.moves.head?.getD (Config.draw s.draws)

/-- The state once the next move has been taken from its source: the pulses of the step before have ended. -/
def takeMove (s : State) : State :=
  match s.moves with
  | [] => { endPulses s with draws := s.draws + 1 }
  | _ :: ms => { endPulses s with moves := ms }

/-- The code an outside host presents, with the state in which it no longer presents it (30_encoding.md R107). -/
def fetchCommand (s : State) : Option (Code × State) :=
  match s.host, s.program with
  | .program, w :: ws => some (.word w, { s with program := ws })
  | .program, [] => none
  | .reference, _ => none

/-- The code a move presents to its consumer, if it presents one, with the state in which the consumer has taken it. -/
def fetch (m : Move) (s : State) : Option (Code × State) :=
  match m with
  | .command => fetchCommand s
  | .foreground => fetchForeground s
  | .handler => fetchHandler s
  | .display => fetchDisplay s
  | .framer => none
  | .scanner _ => none
  | .scannerIdeal => none
  | .tick => none
  | .press _ _ => none
  | .release _ _ => none
  | .peripheralReady => none
  | .rst => none

/-- The state an instruction runs in: its code has been taken where its consumer is ready; a command for a busy unit stays
presented (40_framer_primitives.md R120). -/
def presented (i : Instr) (s t : State) : State := if ready i s then t else s

/-- A byte that no row of its space lists: the sink refuses such a frame, stores such a data byte, and the host ignores
such a key result (20_memory.md R68, 43_host_stopwatch.md R195; assumption 7). -/
def passByte (c : Code) (s : State) : State :=
  match c with
  | .word _ => s
  | .bus _ => sinkRefuse s
  | .data b => storeData b s
  | .key _ => s

/-- The outcome for a code that is no instruction: the two refusals of 60_exceptions.md R225, or an unlisted byte. -/
def noInstr (v : Verdict) (c : Code) (t : State) : Out :=
  match v with
  | .ok _ => .next t
  | .reserved => .refused .reservedWord
  | .outOfDomain => .refused .renderOutOfDomain
  | .unlisted => .next (passByte c t)

/-- A move that presents no code. An agent with nothing to do leaves the state as it is (assumption 19). -/
def unitMove (m : Move) (s : State) : State :=
  match m with
  | .command => s
  | .framer => framerStep s
  | .scanner v => scannerStep v s
  | .scannerIdeal => scannerStep (idealSample s.pressed s.row) s
  | .foreground => if foregroundRuns s then foregroundStep s else s
  | .handler => if handlerRuns s then handlerStep s else s
  | .tick => takeTick s
  | .display => displayIdle s
  | .press r c => pressKey r c s
  | .release r c => releaseKey r c s
  | .peripheralReady => readyPeripheral s
  | .rst => resetMachine s

/-- A code placed where its consumer fetches next, with the move that fetches it (assumption 4). -/
def placeCode (c : Code) (s : State) : State :=
  match c with
  | .word w => { s with host := .program, program := w :: s.program, moves := .command :: s.moves }
  | .bus b =>
    { s with sink := { s.sink with refused := false, rest := [], inbox := [b] :: s.sink.inbox }, moves := .display :: s.moves }
  | .data b => { s with sink := { s.sink with refused := false, rest := [b] }, moves := .display :: s.moves }
  | .key b => { s with host := .reference, fg := .dispatch b, handler := .idle, moves := .foreground :: s.moves }

end Sys2Proof.Machine
end

