-- ==== Sys2Proof/Machine/Step.lean ====
section
/-! DEFINITION. One step of the machine, and placing an instruction where the step fetches it. -/

namespace Sys2Proof.Machine

/-- One step: the next move is taken; where it presents a code, the code is decoded and its instruction runs, and otherwise
the agent's own step happens. -/
def step (s : State) : Host.Outcome State Fault Refusal :=
  match fetch (nextMove s) (takeMove s) with
  | none => .next (unitMove (nextMove s) (takeMove s))
  | some (c, t) =>
    match decode c with
    | .ok i => exec i (presented i (takeMove s) t)
    | .reserved => noInstr .reserved c t
    | .outOfDomain => noInstr .outOfDomain c t
    | .unlisted => noInstr .unlisted c t

/-- `s` with an opcode-table word stored where its consumer fetches next, and the move that fetches it. -/
def State.withFetchWord (s : State) (nbits w : Nat) : State := placeCode (tableCode nbits w) s

end Sys2Proof.Machine
end

