-- ==== Sys2Proof/Machine/Assembler.lean ====
section
/-! DEFINITION. The spec's assembler notation and its pseudo-instructions (30_encoding.md R107, R108). -/

namespace Sys2Proof.Machine

/-! ## Pseudo-instructions (30_encoding.md R108) -/

/-- `AUTOINC`. -/
def asmAutoinc : List Instr := [.sendframe 0x40]

/-- `DISPON`. -/
def asmDispon : List Instr := [.sendframe 0x8F]

/-- `BURST0 b0, b1, b2, b3`. -/
def asmBurst0 (d : Four Byte) : List Instr :=
  [.start, .wrbyte 0xC0, .wrbyte d.e0, .wrbyte d.e1, .wrbyte d.e2, .wrbyte d.e3, .stop]

/-- `SHOW` with the DigitFrame of its operands. -/
def asmShow (d : Four Byte) : List Instr := asmAutoinc ++ asmBurst0 d ++ asmDispon

/-- The event list of a list of commands: acceptance and completion write no pin (41_framer_commands.md R147). -/
def expandProgram : List Instr → List FrEvent
  | [] => []
  | i :: is => expand i ++ expandProgram is

/-! ## Notation (30_encoding.md R107) -/

/-- One hexadecimal digit. -/
def hexDigit (n : Nat) : Char := "0123456789ABCDEF".toList.getD n '?'

/-- A byte operand as `0x` and two digits. -/
def hexByte (b : Byte) : String := "0x" ++ String.ofList [hexDigit (b.toNat / 16), hexDigit (b.toNat % 16)]

/-- An instruction as a line of assembly; the byte rows by the opcode table's names. -/
def asmLine : Instr → String
  | .start => "START"
  | .stop => "STOP"
  | .wrbyte b => "WRBYTE " ++ hexByte b
  | .sendframe b => "SENDFRAME " ++ hexByte b
  | .render m s c => "RENDER " ++ toString m.toNat ++ ", " ++ toString s.toNat ++ ", " ++ (if c then "1" else "0")
  | .scan => "SCAN"
  | .busDataAutoinc => "BUS_DATA_AUTOINC"
  | .busAddr0 => "BUS_ADDR0"
  | .busDisplayOn => "BUS_DISPLAY_ON"
  | .seg0 => "SEG_0"
  | .seg1 => "SEG_1"
  | .seg2 => "SEG_2"
  | .seg3 => "SEG_3"
  | .seg4 => "SEG_4"
  | .seg5 => "SEG_5"
  | .seg6 => "SEG_6"
  | .seg7 => "SEG_7"
  | .seg8 => "SEG_8"
  | .seg9 => "SEG_9"
  | .colonBit low => "COLON_BIT " ++ hexByte (low.zeroExtend 8)
  | .key1 => "KEY_1"
  | .key2 => "KEY_2"
  | .key3 => "KEY_3"
  | .keyA => "KEY_A"
  | .key4 => "KEY_4"
  | .key5 => "KEY_5"
  | .key6 => "KEY_6"
  | .keyB => "KEY_B"
  | .key7 => "KEY_7"
  | .key8 => "KEY_8"
  | .key9 => "KEY_9"
  | .keyC => "KEY_C"
  | .keyStar => "KEY_STAR"
  | .key0 => "KEY_0"
  | .keyHash => "KEY_HASH"
  | .keyD => "KEY_D"
  | .keyNone => "KEY_NONE"

end Sys2Proof.Machine
end

