-- ==== Sys2Proof/Safety.lean ====
section
/-! DEFINITION. What counts as the end of a run and as a good run, the launch premises, and the invariants that claims are
stated with (10_state.md R44, 60_exceptions.md R225, R236, 00_scope.md R8, 70_reset_and_hazards.md R262, R287). -/

namespace Sys2Proof.Machine

/-! ## Runs -/

/-- The end of the run of an outside host's finite program: no command waits and both units are idle. A run of the reference
host has no final state (70_reset_and_hazards.md R287). -/
def finalState (s : State) : Bool :=
  match s.host with
  | .program => s.program.isEmpty && !s.fBusy && !s.kBusy
  | .reference => false

/-- An outcome that is a next state: no refusal is recorded and no fault met (60_exceptions.md R225). -/
def goesOn (o : Out) : Bool :=
  match o with
  | .next _ => true
  | .fault _ => false
  | .refused _ => false

/-- The launch premise "no reset during a run" for the moves already listed (70_reset_and_hazards.md R262, D9). -/
def noReset (ms : List Move) : Bool := ms.all fun m => m ≠ .rst

/-- The launch premise `render_fits_tick`: one refresh is shorter than a tick (60_exceptions.md R236, D16; the spec says
"much", without a number). -/
def renderFitsTick : Prop := 203 * (Config.tSettle : Nat) + 203 < (Config.tTick : Nat)

/-- The launch premise on the debounce wait: it is longer than a settle wait (00_scope.md R8; the spec says "much greater",
without a number, so this is its weakest reading). -/
def debounceOutlastsSettle : Prop := (Config.tSettle : Nat) < (Config.tDebounce : Nat)

/-- The monitor's answer is a list of frames, and the sink has refused nothing (20_memory.md R66, R68): the premise under which
what the sink holds is the spec's (assumption 24). -/
def goodBus (s : State) : Bool := (monitorVerdict s.mon).isSome && !s.sink.refused

/-- `n` steps, stopping at the first fault or refusal. -/
def runSteps : Nat → State → Out
  | 0, s => .next s
  | n + 1, s =>
    match step s with
    | .next t => runSteps n t
    | .fault r => .fault r
    | .refused r => .refused r

/-! ## Parts of the state, for frames -/

/-- The framer's registers, its pins, the host's note of its completion, and the monitor that follows the pins. -/
def framerPart (s : State) :=
  (s.clk, s.dio, s.fcmd, s.shr, s.df, s.fq, s.fBusy, s.fNoted, s.ctr, s.mon)

/-- The scanner's registers and pins, and the host's note of its completion. -/
def scannerPart (s : State) := (s.row, s.krow, s.kcols, s.kst, s.kBusy, s.kNoted, s.key)

/-- The completion pulses, which end with the next step whatever it is. -/
def pulsePart (s : State) := (s.fDone, s.kDone)

/-- The host's variables and the positions of its threads. -/
def hostPart (s : State) :=
  (s.runState, s.minutes, s.seconds, s.colonPhase, s.fg, s.handler, s.tickEnabled, s.periphReady)

/-- The inputs of the step. -/
def inputPart (s : State) := (s.pressed, s.host, s.program, s.moves, s.draws)

/-- What the framer never touches: the scanner, the host, the inputs, the display memory, and the sink but for the frames
it receives. -/
def outsideFramer (s u : State) : Prop :=
  scannerPart u = scannerPart s ∧ hostPart u = hostPart s ∧ inputPart u = inputPart s ∧ u.dm = s.dm ∧
    u.sink = { s.sink with inbox := u.sink.inbox }

/-- What the scanner never touches. -/
def outsideScanner (s u : State) : Prop :=
  framerPart u = framerPart s ∧ hostPart u = hostPart s ∧ inputPart u = inputPart s ∧ u.dm = s.dm ∧ u.sink = s.sink

/-- `u` is `s` after a framer command with word `w` and event list `es`, accepted in `s`, has been performed to its end:
the trace, the levels, the registers of the command, its completion pulse, and everything the framer does not touch. -/
def commandDone (w : Word) (es : List FrEvent) (s u : State) : Prop :=
  u.trace = s.trace ++ [.issue w] ++ es.map .fr ++ [.doneFramer] ∧
    levels u = finalLevels (levels s) es ∧
    u.fcmd = w ∧ u.fq = [] ∧ u.fBusy = false ∧ pulsePart u = (true, false) ∧ u.fNoted = true ∧ outsideFramer s u

/-- The values DIO takes where it changes while CLK stays 1, along a waveform whose last entry read is `p` (20_memory.md
R83). -/
def highDioChanges (p : Bool × Bool) : List (Bool × Bool) → List Bool
  | [] => []
  | q :: qs =>
    if p.1 && q.1 && p.2 != q.2 then q.2 :: highDioChanges q qs else highDioChanges q qs

/-! ## Invariants -/

/-- The 17 values of KEY (30_encoding.md R105). -/
def keyCodes : List Byte := keyRows.map Prod.fst

/-- The framer: F_BUSY says that FQ is not empty, and FQ is a suffix of the expansion of FCMD (10_state.md R29, R44 (a)). -/
abbrev FramerInv (s : State) : Prop :=
  (s.fBusy = true ↔ s.fq ≠ []) ∧ (s.fBusy = true → s.fq <:+ expandWord s.fcmd)

/-- The counters with SHR and DF select exactly the events of FQ, in order (10_state.md R30). -/
def CountersAgree (s : State) : Prop :=
  ∀ n, counterEvents s.fcmd s.df n s.ctr s.shr = s.fq.take n

/-- ROW in each position of the scanner (10_state.md R44 (b)). -/
def scannerRow (s : State) : BitVec 4 :=
  match s.kst with
  | .idle => 0
  | .drive => if s.krow = 0 then 0 else onehot (s.krow - 1)
  | .sample => onehot s.krow
  | .releaseHit => onehot s.krow
  | .debounce => 0
  | .releaseMiss => onehot s.krow
  | .ret => 0

/-- The scanner: K_BUSY says that KST is not K_IDLE, ROW is as its position has it, KEY is one of its 17 values (10_state.md
R34, R44 (b), (d)). -/
abbrev ScannerInv (s : State) : Prop :=
  (s.kBusy = true ↔ s.kst ≠ .idle) ∧ s.row = scannerRow s ∧ s.key ∈ keyCodes

/-- The bus monitor of the state is the monitor of R66 run over the waveform of the trace, and the levels are those the
trace leaves; the run began at reset (20_memory.md R66, 00_scope.md R11). -/
abbrev MonitorInv (s : State) : Prop :=
  s.mon = monitorFold Monitor.initial (true, true) (waveTail (true, true) (framerEvents s.trace)) ∧
    levels s = finalLevels (true, true) (framerEvents s.trace)

/-- The display memory is canonical and lists only the addresses 0..3 (20_memory.md R63). -/
abbrev DisplayInv (s : State) : Prop :=
  s.dm.wf = true ∧ ∀ c ∈ s.dm, c.1 < displaySize

/-- Minutes and seconds are in 0..59, but for the transient 60 inside the handler (43_host_stopwatch.md R196). -/
abbrev TimeInv (s : State) : Prop :=
  match s.handler with
  | .zeroSeconds => s.seconds = 60 ∧ s.minutes < 60
  | .zeroMinutes => s.seconds < 60 ∧ s.minutes = 60
  | _ => s.seconds < 60 ∧ s.minutes < 60

/-- A word the foreground issues for a call: SCAN, or a RENDER of 00:00 (43_host_stopwatch.md R194, R199,
70_reset_and_hazards.md R266). -/
def callWord (c : Call) (w : Word) : Prop :=
  match c with
  | .boot => w = bootWord
  | .scan => w = scanWord
  | .reset => ∃ b, w = renderWord 0 0 b

/-- The reference host presents only words of its own table: those of the foreground's calls, and in-domain RENDER words of
the tick handler (43_host_stopwatch.md R190, R198). -/
def HostInv (s : State) : Prop :=
  TimeInv s ∧ (∀ w c, s.fg = .issue w c → callWord c w) ∧
    ∀ w, s.handler = .issue w → w = tickWord s

end Sys2Proof.Machine
end

