-- ==== Sys2Proof/Certificates/Slice0/Obligations.lean ====
section
/-! DEFINITION. The statements for the provers. A statement about a next state gives that state, or its part that the cited
rule speaks of together with its frame. -/

open Sys2Proof Sys2Proof.Machine

/-! ## Encodings -/

/-- Decoding the code of a well-formed instruction gives it back, every operand at every value (30_encoding.md sections 2, 5,
6, 7). -/
def Obligations.DecodeOfEncode : Prop :=
  ∀ i : Instr, i.wellFormed = true → decode (encode i) = .ok i

/-- A code that decodes to an instruction is that instruction's one code, and the instruction is well-formed. -/
def Obligations.EncodeOfDecode : Prop :=
  ∀ (c : Code) (i : Instr), decode c = .ok i → encode i = c ∧ i.wellFormed = true

/-- A few words of 95_test_vectors.md B1 and bytes of R100, R102, R103, R105 decode as they say. -/
def Obligations.VectorWordsDecode : Prop :=
  decodeTableWord 16 0x2000 = some .start ∧ decodeTableWord 16 0x4000 = some .stop ∧
  decodeTableWord 16 0x608F = some (.wrbyte 0x8F) ∧ decodeTableWord 16 0x8040 = some (.sendframe 0x40) ∧
  decodeTableWord 16 0xB322 = some (.render 12 34 true) ∧ decodeTableWord 16 0xC000 = some .scan ∧
  decodeTableWord 16 0x2001 = none ∧ decodeTableWord 16 0xA03C = none ∧
  decodeTableWord 8 0xC0 = some .busAddr0 ∧ decodeTableWord 8 0x66 = some .seg4 ∧
  decodeTableWord 8 0xDB = some (.colonBit 0x5B) ∧ decodeTableWord 8 0x43 = some .keyC ∧
  decodeTableWord 8 0x00 = some .keyNone

/-- The reserved words are exactly those of R96, and a reserved word presented to the block, by whichever host, ends the step in
the refusal: no next state. -/
def Obligations.ReservedWordsRefused : Prop :=
  (∀ w : Word, decode (.word w) = .reserved ↔
    (w.toNat / 8192 = 0 ∨ w.toNat / 8192 = 7 ∨
      ((w.toNat / 8192 = 1 ∨ w.toNat / 8192 = 2 ∨ w.toNat / 8192 = 6) ∧ w.toNat % 8192 ≠ 0) ∨
      ((w.toNat / 8192 = 3 ∨ w.toNat / 8192 = 4) ∧ w.toNat / 256 % 32 ≠ 0))) ∧
  ∀ (s t : State) (w : Word), fetch (nextMove s) (takeMove s) = some (.word w, t) → decode (.word w) = .reserved →
    step s = .refused .reservedWord

/-- A RENDER word with m > 59 or s > 59, and no other word, is out of domain; presented to the block or executed it is refused;
the word the tick handler composes from a time in 0..59 is none of them. (That such a word is refused also while `F_BUSY = 1`,
before the busy check, is the model's reading, assumption 10: section B12 of 95_test_vectors.md gives this refusal for
`F_BUSY = 0`, and R120 and R225 let a command for a busy unit wait.) -/
def Obligations.RenderOutOfDomainRefused : Prop :=
  (∀ w : Word, decode (.word w) = .outOfDomain ↔
    (w.toNat / 8192 = 5 ∧ (59 < w.toNat / 64 % 64 ∨ 59 < w.toNat % 64))) ∧
  (∀ (s t : State) (w : Word), fetch (nextMove s) (takeMove s) = some (.word w, t) → decode (.word w) = .outOfDomain →
    step s = .refused .renderOutOfDomain) ∧
  (∀ (m sec : BitVec 6) (c : Bool) (s : State), (59 < m.toNat ∨ 59 < sec.toNat) →
    exec (.render m sec c) s = .refused .renderOutOfDomain) ∧
  ∀ s : State, s.minutes < 60 → s.seconds < 60 → decode (.word (tickWord s)) ≠ .outOfDomain

/-- No instruction and no step ends in a fault, in any state. -/
def Obligations.NothingFaults : Prop :=
  (∀ (i : Instr) (s : State) (r : Fault), exec i s ≠ .fault r) ∧ ∀ (s : State) (r : Fault), step s ≠ .fault r

/-! ## The step -/

/-- Where the next move presents a code that decodes to an instruction, the step is that instruction's meaning, in the state
in which its consumer has taken the code (a busy unit leaves the word presented). What the step does before that is spelt
out: the pulses of the step before end and the move is taken from its source; so is the state an outside host's word has been
taken in. (These two clauses are the model's choice, the cited sections do not speak of them: the pulses end with every step,
assumption 8; a step takes one move, from `moves` or else by the free draw, assumption 2; an outside host's words stand in
`program` and its run is told by `host`, assumption 4. That a word for a busy unit stays presented is R120 and R161.) -/
def Obligations.StepRunsDecodedInstruction : Prop :=
  (∀ (s t : State) (c : Code) (i : Instr), fetch (nextMove s) (takeMove s) = some (c, t) → decode c = .ok i →
    step s = exec i (if ready i (takeMove s) then t else takeMove s)) ∧
  (∀ s : State, takeMove s =
    { s with
      fDone := false
      kDone := false
      moves := s.moves.tail
      draws := if s.moves = [] then s.draws + 1 else s.draws }) ∧
  ∀ (s : State) (w : Word) (ws : List Word) (i : Instr), nextMove s = .command → s.host = .program →
    s.program = w :: ws → decode (.word w) = .ok i →
    step s = exec i (if ready i s then { takeMove s with program := ws } else takeMove s)

/-- A list of framer moves runs the framer that often, a list of scanner moves runs the scanner with the answers the moves
carry or with those of the ideal matrix, and a list of handler moves runs the tick handler up to its `ISSUE`; nothing else
happens. -/
def Obligations.UnitMovesRunTheUnit : Prop :=
  (∀ (n : Nat) (s : State) (ms : List Move),
    runSteps n { s with moves := List.replicate n .framer ++ ms } = .next { framerRun n s with moves := ms }) ∧
  (∀ (vs : List (BitVec 4)) (s : State) (ms : List Move),
    runSteps vs.length { s with moves := vs.map .scanner ++ ms } = .next { scannerRun vs s with moves := ms }) ∧
  (∀ (n : Nat) (s : State) (ms : List Move),
    runSteps n { s with moves := List.replicate n .scannerIdeal ++ ms } = .next { scannerRunIdeal n s with moves := ms }) ∧
  ∀ (n : Nat) (s : State) (ms : List Move), s.host = .reference →
    (∀ k, k < n → ∀ w, (handlerRun k s).handler ≠ .issue w) →
    runSteps n { s with moves := List.replicate n .handler ++ ms } = .next { handlerRun n s with moves := ms }

/-! ## Framer commands -/

/-- START from any idle framer: accepted, and six framer steps perform C1 S D1 S D0 S, leaving CLK = 1 and DIO = 0, SHR and
DF as they were and nothing outside the framer changed. (SHR kept: assumption 11; the pulse f_done as a bit of State and the
host's note of it, in this statement and the next four: assumption 8.) -/
def Obligations.StartPerformsItsEvents : Prop :=
  ∀ s : State, s.fBusy = false →
    ∃ t, exec .start s = .next t ∧
      commandDone 0x2000
        [.write .clk true, .settle, .write .dio true, .settle, .write .dio false, .settle] s (framerRun 6 t) ∧
      levels (framerRun 6 t) = (true, false) ∧ (framerRun 6 t).shr = s.shr ∧ (framerRun 6 t).df = s.df

/-- STOP from any idle framer: accepted, and eight framer steps perform C0 S D0 S C1 S D1 S, leaving both lines at 1, SHR and
DF as they were and nothing outside the framer changed. (SHR kept: assumption 11.) -/
def Obligations.StopPerformsItsEvents : Prop :=
  ∀ s : State, s.fBusy = false →
    ∃ t, exec .stop s = .next t ∧
      commandDone 0x4000
        [.write .clk false, .settle, .write .dio false, .settle, .write .clk true, .settle, .write .dio true, .settle]
        s (framerRun 8 t) ∧
      levels (framerRun 8 t) = (true, true) ∧ (framerRun 8 t).shr = s.shr ∧ (framerRun 8 t).df = s.df

/-- WRBYTE b from any idle framer: 52 framer steps perform the eight bit slots, least significant bit first, and the
acknowledge slot; the levels after are (1, b[7]), SHR holds b, and DF is as it was. -/
def Obligations.WrbytePerformsItsEvents : Prop :=
  ∀ (b : Byte) (s : State), s.fBusy = false →
    ∃ t, exec (.wrbyte b) s = .next t ∧
      commandDone (0x6000 ||| b.zeroExtend 16)
        (((List.range 8).flatMap fun i =>
            [.write .clk false, .settle, .write .dio (b.getLsbD i), .settle, .write .clk true, .settle]) ++
          [.write .clk false, .settle, .write .clk true, .settle]) s (framerRun 52 t) ∧
      levels (framerRun 52 t) = (true, b.getLsbD 7) ∧ t.shr = b ∧ (framerRun 52 t).shr = b ∧
      (framerRun 52 t).df = s.df

/-- SENDFRAME b from any idle framer: 66 framer steps perform START, WRBYTE b and STOP, leaving the bus idle, b in SHR
and DF as it was. -/
def Obligations.SendframePerformsItsEvents : Prop :=
  ∀ (b : Byte) (s : State), s.fBusy = false →
    ∃ t, exec (.sendframe b) s = .next t ∧
      commandDone (0x8000 ||| b.zeroExtend 16) (expand .start ++ expand (.wrbyte b) ++ expand .stop) s
        (framerRun 66 t) ∧
      levels (framerRun 66 t) = (true, true) ∧ (framerRun 66 t).shr = b ∧ (framerRun 66 t).df = s.df

/-- RENDER m, s, c in its domain from any idle framer: DF takes the four digit bytes at acceptance and 406 framer steps
perform the three frames in their order, leaving the bus idle and DF as accepted. -/
def Obligations.RenderPerformsItsEvents : Prop :=
  ∀ (m sec : BitVec 6) (c : Bool) (s : State), m.toNat ≤ 59 → sec.toNat ≤ 59 → s.fBusy = false →
    ∃ t d0 d1 d2 d3, exec (.render m sec c) s = .next t ∧
      seg (m.toNat / 10) = some d0 ∧ seg (m.toNat % 10) = some d1 ∧
      seg (sec.toNat / 10) = some d2 ∧ seg (sec.toNat % 10) = some d3 ∧
      t.df = ⟨d0, d1 ||| (if c then 0x80 else 0), d2, d3⟩ ∧
      commandDone (0xA000 ||| ((BitVec.ofBool c).zeroExtend 16 <<< 12) ||| (m.zeroExtend 16 <<< 6) ||| sec.zeroExtend 16)
        (frame [0x40] ++ frame [0xC0, t.df.e0, t.df.e1, t.df.e2, t.df.e3] ++ frame [0x8F]) s (framerRun 406 t) ∧
      levels (framerRun 406 t) = (true, true) ∧ (framerRun 406 t).df = t.df

/-- Acceptance of a framer command writes FCMD, FQ and F_BUSY and records `ISSUE(w)`; no pin, no pin event, and nothing
outside the framer changes. (R120, R28 and R40 do not speak of SHR: that the acceptance of a command other than WRBYTE leaves
it is the model's choice, assumption 11, and so is the host's note of the completion, which the acceptance clears,
assumption 8.) -/
def Obligations.FramerAcceptance : Prop :=
  ∀ (i : Instr) (s : State), i.wellFormed = true → i.consumer = .framer → s.fBusy = false →
    ∃ t w, exec i s = .next t ∧ encode i = .word w ∧
      t.fcmd = w ∧ t.fq = expand i ∧ t.fq ≠ [] ∧ t.fBusy = true ∧ t.trace = s.trace ++ [.issue w] ∧
      levels t = levels s ∧ t.mon = s.mon ∧ outsideFramer s t ∧ t.sink = s.sink ∧
      pulsePart t = pulsePart s ∧ t.fNoted = false ∧
      ((∀ m sec c, i ≠ .render m sec c) → t.df = s.df) ∧ ((∀ b, i ≠ .wrbyte b) → t.shr = s.shr)

/-- A command for a busy unit waits: nothing changes, and the word, whichever host presents it, stays at the command port. -/
def Obligations.BusyUnitLeavesCommandWaiting : Prop :=
  (∀ (i : Instr) (s : State), i.wellFormed = true →
    (i.consumer = .framer ∧ s.fBusy = true) ∨ (i.consumer = .scanner ∧ s.kBusy = true) → exec i s = .next s) ∧
  ∀ (i : Instr) (s t : State) (w : Word), fetch (nextMove s) (takeMove s) = some (.word w, t) →
    decode (.word w) = .ok i →
    (i.consumer = .framer ∧ s.fBusy = true) ∨ (i.consumer = .scanner ∧ s.kBusy = true) →
    step s = .next (takeMove s) ∧ cmdPort (takeMove s) = some w

/-! ## The framer in general -/

/-- A framer step performs exactly the head of FQ: a write sets its line and is recorded, a settle wait is only recorded;
with FQ empty nothing happens. The step that empties FQ also clears F_BUSY, gives the pulse f_done and records DONE (R128, R40),
and no other step gives it. Nothing outside the framer changes but the frames the sink receives. (That a framer with nothing to
perform may be moved, and then nothing happens: assumption 19. The pulse as a bit of State, and the host's note of it:
assumption 8.) -/
def Obligations.FramerStepPerformsHead : Prop :=
  (∀ s : State, s.fq = [] → framerStep s = s) ∧
  (∀ (s : State) (v : Bool) (rest : List FrEvent), s.fq = .write .clk v :: rest →
    (framerStep s).clk = v ∧ (framerStep s).dio = s.dio) ∧
  (∀ (s : State) (v : Bool) (rest : List FrEvent), s.fq = .write .dio v :: rest →
    (framerStep s).clk = s.clk ∧ (framerStep s).dio = v) ∧
  (∀ (s : State) (rest : List FrEvent), s.fq = .settle :: rest →
    levels (framerStep s) = levels s ∧ (framerStep s).mon = s.mon ∧ (framerStep s).sink = s.sink) ∧
  ∀ (s : State) (e : FrEvent) (rest : List FrEvent), s.fq = e :: rest →
    (framerStep s).fq = rest ∧ outsideFramer s (framerStep s) ∧
    (framerStep s).fcmd = s.fcmd ∧ (framerStep s).df = s.df ∧
    (rest ≠ [] → (framerStep s).trace = s.trace ++ [.fr e] ∧ (framerStep s).fBusy = s.fBusy ∧
      pulsePart (framerStep s) = pulsePart s ∧ (framerStep s).fNoted = s.fNoted) ∧
    (rest = [] → (framerStep s).trace = s.trace ++ [.fr e, .doneFramer] ∧ (framerStep s).fBusy = false ∧
      pulsePart (framerStep s) = (true, s.kDone) ∧ (framerStep s).fNoted = true)

/-- From any state with events to perform, as many framer steps as FQ has events perform them all in order and complete the
command; where the framer invariant holds FQ has at most 406 events, so every accepted command completes. (The pulse f_done as
a bit of State and the host's note of it: assumption 8.) -/
def Obligations.FramerRunCompletes : Prop :=
  (∀ s : State, s.fq ≠ [] →
    (framerRun s.fq.length s).trace = s.trace ++ s.fq.map .fr ++ [.doneFramer] ∧
    levels (framerRun s.fq.length s) = finalLevels (levels s) s.fq ∧
    (framerRun s.fq.length s).fq = [] ∧ (framerRun s.fq.length s).fBusy = false ∧
    pulsePart (framerRun s.fq.length s) = (true, false) ∧ (framerRun s.fq.length s).fNoted = true ∧
    outsideFramer s (framerRun s.fq.length s)) ∧
  ∀ s : State, FramerInv s → s.fq.length ≤ 406

/-- Every step keeps the framer invariant: F_BUSY says that FQ is not empty, and FQ is a suffix of the expansion of FCMD. -/
def Obligations.FramerInvariantKept : Prop :=
  ∀ s t : State, FramerInv s → step s = .next t → FramerInv t

/-- Every step keeps the agreement of the counter realisation with FQ: the counters, SHR, FCMD and DF select exactly the
events of FQ, in order, and then none. (The counters beside FQ: assumption 11.) -/
def Obligations.CounterRealisationKept : Prop :=
  ∀ s t : State, CountersAgree s → step s = .next t → CountersAgree t

/-- The invariants hold right after reset. -/
def Obligations.InvariantsHoldAtReset : Prop :=
  FramerInv State.reset ∧ CountersAgree State.reset ∧ ScannerInv State.reset ∧ MonitorInv State.reset ∧
    DisplayInv State.reset ∧ HostInv State.reset

/-- Every framer command is a list of pin writes with exactly one settle wait after each of them. -/
def Obligations.OneWaitAfterEveryWrite : Prop :=
  ∀ i : Instr, ∃ ws : List (Line × Bool), expand i = ws.flatMap fun p => [.write p.1 p.2, .settle]

/-- Counts of pin writes and settle waits of every framer command and of a frame of any length, and the time of the waits of a
refresh. -/
def Obligations.EventCounts : Prop :=
  (writeCount (expand .start) = 3 ∧ settleCount (expand .start) = 3) ∧
  (writeCount (expand .stop) = 4 ∧ settleCount (expand .stop) = 4) ∧
  (∀ b, writeCount (expand (.wrbyte b)) = 26 ∧ settleCount (expand (.wrbyte b)) = 26) ∧
  (∀ b, writeCount (expand (.sendframe b)) = 33 ∧ settleCount (expand (.sendframe b)) = 33) ∧
  (∀ bs, writeCount (frame bs) = 7 + 26 * bs.length ∧ settleCount (frame bs) = 7 + 26 * bs.length) ∧
  ∀ m sec c, m.toNat ≤ 59 → sec.toNat ≤ 59 →
    writeCount (expand (.render m sec c)) = 203 ∧ settleCount (expand (.render m sec c)) = 203 ∧
    waitClocks (expand (.render m sec c)) = 203 * (Config.tSettle : Nat)

/-- The levels each command leaves, whatever it found: START (1, 0), WRBYTE b (1, b[7]), STOP, SENDFRAME and a refresh
(1, 1). -/
def Obligations.LevelsAfterCommands : Prop :=
  ∀ p : Bool × Bool, finalLevels p (expand .start) = (true, false) ∧ finalLevels p (expand .stop) = (true, true) ∧
    (∀ b, finalLevels p (expand (.wrbyte b)) = (true, b.getLsbD 7)) ∧
    (∀ b, finalLevels p (expand (.sendframe b)) = (true, true)) ∧
    ∀ df, finalLevels p (expandRefresh df) = (true, true)

/-- `SHOW` written out is, event for event, the refresh, and it is the nine commands of R108. -/
def Obligations.ShowEqualsRender : Prop :=
  ∀ (m sec : BitVec 6) (c : Bool) (d : Four Byte), digits m sec c = some d →
    asmShow d = [.sendframe 0x40, .start, .wrbyte 0xC0, .wrbyte d.e0, .wrbyte d.e1, .wrbyte d.e2, .wrbyte d.e3, .stop,
      .sendframe 0x8F] ∧
    expandProgram (asmShow d) = expand (.render m sec c)

/-- The events of the framer depend on nothing but its own registers: two states that agree on the framer's part agree on it
after a framer step, whatever the host, the scanner and the inputs are, and the pulse f_done is given in both or in none. -/
def Obligations.FramerIgnoresTheRest : Prop :=
  ∀ s u : State, framerPart s = framerPart u → framerPart (framerStep s) = framerPart (framerStep u) ∧
    (framerStep (endPulses s)).fDone = (framerStep (endPulses u)).fDone

/-! ## Tables -/

/-- SEG has its ten entries, bit 7 of each is 0, an index above 9 has none, and RENDER never meets that fault. -/
def Obligations.SegmentTable : Prop :=
  seg 0 = some 0x3F ∧ seg 1 = some 0x06 ∧ seg 2 = some 0x5B ∧ seg 3 = some 0x4F ∧ seg 4 = some 0x66 ∧
  seg 5 = some 0x6D ∧ seg 6 = some 0x7D ∧ seg 7 = some 0x07 ∧ seg 8 = some 0x7F ∧ seg 9 = some 0x6F ∧
  (∀ d b, seg d = some b → b.getLsbD 7 = false) ∧ (∀ d, 10 ≤ d → seg d = none) ∧
  ∀ (m sec : BitVec 6) (c : Bool) (s : State), exec (.render m sec c) s ≠ .fault .segIndex

/-- The DigitFrame of RENDER for every operand in its domain: the four table lookups, the colon bit in the second byte only,
written to DF on acceptance. -/
def Obligations.DigitFrameOfRender : Prop :=
  ∀ (m sec : BitVec 6) (c : Bool), m.toNat ≤ 59 → sec.toNat ≤ 59 →
    ∃ d0 d1 d2 d3, seg (m.toNat / 10) = some d0 ∧ seg (m.toNat % 10) = some d1 ∧
      seg (sec.toNat / 10) = some d2 ∧ seg (sec.toNat % 10) = some d3 ∧
      digits m sec c = some ⟨d0, d1 ||| (if c then 0x80 else 0x00), d2, d3⟩ ∧
      (d1 ||| (if c then 0x80 else 0x00)).getLsbD 7 = c ∧
      d0.getLsbD 7 = false ∧ d2.getLsbD 7 = false ∧ d3.getLsbD 7 = false ∧
      m.toNat / 10 ≤ 5 ∧ m.toNat % 10 ≤ 9 ∧ sec.toNat / 10 ≤ 5 ∧ sec.toNat % 10 ≤ 9 ∧
      ∀ s : State, s.fBusy = false →
        ∃ t, exec (.render m sec c) s = .next t ∧ t.df = ⟨d0, d1 ||| (if c then 0x80 else 0x00), d2, d3⟩

/-- The sixteen cells of KEYMAP hold the codes of their symbols, row-major. -/
def Obligations.KeymapSymbols : Prop :=
  [keymap 0 0, keymap 0 1, keymap 0 2, keymap 0 3].map decodeKey = [.ok .key1, .ok .key2, .ok .key3, .ok .keyA] ∧
  [keymap 1 0, keymap 1 1, keymap 1 2, keymap 1 3].map decodeKey = [.ok .key4, .ok .key5, .ok .key6, .ok .keyB] ∧
  [keymap 2 0, keymap 2 1, keymap 2 2, keymap 2 3].map decodeKey = [.ok .key7, .ok .key8, .ok .key9, .ok .keyC] ∧
  [keymap 3 0, keymap 3 1, keymap 3 2, keymap 3 3].map decodeKey = [.ok .keyStar, .ok .key0, .ok .keyHash, .ok .keyD]

/-- With several active columns the lowest-indexed one is chosen, and it is the one the scanner reports. -/
def Obligations.LowestColumnChosen : Prop :=
  (∀ v : BitVec 4, v ≠ 0 →
    v.getLsbD (lowest v).toNat = true ∧ ∀ j, j < (lowest v).toNat → v.getLsbD j = false) ∧
  lowest 0b0110 = 1 ∧ lowest 0b1111 = 0 ∧
  ∀ (s : State) (v : BitVec 4), s.kst = .ret → s.kcols ≠ 0 →
    (scannerStep v s).key = keymap s.krow (lowest s.kcols)

/-! ## The bus observers -/

/-- From any levels, the monitor decodes the waveform of any list of frames to exactly those frames. -/
def Obligations.FramesDecodeToThemselves : Prop :=
  ∀ (p : Bool × Bool) (fs : List (List Byte)), decodedFrames (waveform p (expandFrames fs)) = some fs

/-- In the waveform of any list of frames from an idle bus, DIO changes while CLK is 1 exactly twice a frame: it falls at the
start condition and rises at the stop condition. -/
def Obligations.DioStableWhileClockHigh : Prop :=
  ∀ fs : List (List Byte),
    highDioChanges (true, true) (waveTail (true, true) (expandFrames fs)) = fs.flatMap fun _ => [false, true]

/-- Every step but a reset keeps the monitor of the state equal to the monitor of R66 run over the waveform of the whole
trace. -/
def Obligations.MonitorFollowsTrace : Prop :=
  ∀ s t : State, MonitorInv s → nextMove s ≠ .rst → step s = .next t → MonitorInv t

/-- RENDER reaches the display: from an idle framer and a bus outside a frame, with the sink idle, the 406 framer steps and
the sink's seven bytes leave the sink in mode autoinc, switched on, with the four digit bytes at the addresses 0 to 3 and
every other address as before. (One byte a move of the sink: assumption 6; frames handed over at their stop conditions:
assumption 24.) -/
def Obligations.RenderReachesTheDisplay : Prop :=
  ∀ (m sec : BitVec 6) (c : Bool) (d : Four Byte) (s : State) (ms : List Move),
    m.toNat ≤ 59 → sec.toNat ≤ 59 → digits m sec c = some d → s.fBusy = false →
    s.mon.inframe = false → s.mon.malformed = false →
    s.sink.refused = false → s.sink.rest = [] → s.sink.inbox = [] →
    ∃ t u, exec (.render m sec c) s = .next t ∧
      runSteps 413 { t with moves := List.replicate 406 .framer ++ List.replicate 7 .display ++ ms } = .next u ∧
      u.mon.out = s.mon.out ++ [[0x40], [0xC0, d.e0, d.e1, d.e2, d.e3], [0x8F]] ∧
      u.mon.malformed = false ∧ u.mon.inframe = false ∧
      u.sink.mode = .autoinc ∧ u.sink.on = .on ∧ u.sink.refused = false ∧ u.sink.inbox = [] ∧ u.sink.rest = [] ∧
      u.dm.read 0 = some d.e0 ∧ u.dm.read 1 = some d.e1 ∧ u.dm.read 2 = some d.e2 ∧ u.dm.read 3 = some d.e3 ∧
      ∀ a, 4 ≤ a → u.dm.read a = s.dm.read a

/-! ## The display sink -/

/-- The bus command bytes as the sink executes them: each with its effect where R68 has one, else the sink's refuse mark;
nothing else changes. -/
def Obligations.BusCommandBytes : Prop :=
  ∀ s : State,
    (s.sink.rest = [] → exec .busDataAutoinc s = .next { s with sink := { s.sink with mode := .autoinc } }) ∧
    (s.sink.rest ≠ [] → exec .busDataAutoinc s = .next { s with sink := { s.sink with refused := true } }) ∧
    (s.sink.mode = .autoinc → s.sink.rest.length ≤ 4 →
      exec .busAddr0 s = .next { s with sink := { s.sink with addr := 0 } }) ∧
    (s.sink.mode = .unset ∨ 4 < s.sink.rest.length →
      exec .busAddr0 s = .next { s with sink := { s.sink with refused := true } }) ∧
    (s.sink.rest = [] → exec .busDisplayOn s = .next { s with sink := { s.sink with on := .on } }) ∧
    (s.sink.rest ≠ [] → exec .busDisplayOn s = .next { s with sink := { s.sink with refused := true } })

/-- The ten segment bytes and every byte with the colon bit are stored at the sink's next display address, below 4; every
other address reads as before and nothing else changes. -/
def Obligations.SegmentBytesStored : Prop :=
  ∀ (s : State) (i : Instr) (b : Byte),
    ((i, b) ∈ [(Instr.seg0, (0x3F : Byte)), (.seg1, 0x06), (.seg2, 0x5B), (.seg3, 0x4F), (.seg4, 0x66), (.seg5, 0x6D),
        (.seg6, 0x7D), (.seg7, 0x07), (.seg8, 0x7F), (.seg9, 0x6F)] ∨
      ∃ low : BitVec 7, i = .colonBit low ∧ b.getLsbD 7 = true ∧ low = b.extractLsb' 0 7) →
    (s.sink.addr < 4 → ∃ m : Memory,
      exec i s = .next { s with dm := m, sink := { s.sink with addr := s.sink.addr + 1 } } ∧
      m.read s.sink.addr = some b ∧ ∀ a, a ≠ s.sink.addr → m.read a = s.dm.read a) ∧
    (4 ≤ s.sink.addr → exec i s = .next { s with sink := { s.sink with refused := true } })

/-- Reading a frame byte by byte is R68 on the whole frame: where R68 accepts the frame, the sink's moves give R68's state and
no mark; where R68 refuses it, the mark is set and mode, memory and on are as before. (Byte-by-byte reading: assumption
6.) -/
def Obligations.SinkReadsWholeFrames : Prop :=
  ∀ (s : State) (f : List Byte) (fs : List (List Byte)) (ms : List Move),
    s.sink.refused = false → s.sink.rest = [] → s.sink.inbox = f :: fs →
    ∃ u, runSteps (max 1 f.length) { s with moves := List.replicate (max 1 f.length) .display ++ ms } = .next u ∧
      u.sink.inbox = fs ∧ u.moves = ms ∧
      (∀ k, sinkFrame (sinkView s) f = some k → sinkView u = k ∧ u.sink.refused = false ∧ u.sink.rest = []) ∧
      (sinkFrame (sinkView s) f = none → sinkView u = sinkView s ∧ u.sink.refused = true) ∧
      framerPart u = framerPart s ∧ scannerPart u = scannerPart s ∧ hostPart u = hostPart s ∧ u.trace = s.trace

/-- Every step keeps the display memory canonical and within the addresses 0 to 3. -/
def Obligations.DisplayMemoryKept : Prop :=
  ∀ s t : State, DisplayInv s → step s = .next t → DisplayInv t

/-! ## The scanner -/

/-- The scanner's machine as R171 has it, position by position: what it writes, the one event it records, the next position,
and nothing else. (The pulse k_done as a bit of State and the host's note of it: assumption 8.) -/
def Obligations.ScannerMachine : Prop :=
  State.reset.kst = .idle ∧
  (∀ s : State, s.kBusy = false → ∃ t, exec .scan s = .next t ∧ t.kBusy = true ∧ t.krow = 0 ∧ t.kst = .drive ∧
    t.trace = s.trace ++ [.issue 0xC000] ∧ t.row = s.row ∧ t.kcols = s.kcols ∧ t.key = s.key ∧ outsideScanner s t ∧
    pulsePart t = pulsePart s ∧ t.kNoted = false) ∧
  (∀ (s : State) (v : BitVec 4), s.kst = .drive → scannerStep v s =
    { s with row := onehot s.krow, kst := .sample, trace := s.trace ++ [.rowWrite (onehot s.krow)] }) ∧
  (∀ (s : State) (v : BitVec 4), s.kst = .sample → v ≠ 0 → scannerStep v s =
    { s with kcols := v, kst := .releaseHit, trace := s.trace ++ [.colSample v] }) ∧
  (∀ s : State, s.kst = .sample → s.krow.toNat < 3 → scannerStep 0 s =
    { s with kcols := 0, krow := s.krow + 1, kst := .drive, trace := s.trace ++ [.colSample 0] }) ∧
  (∀ s : State, s.kst = .sample → s.krow = 3 → scannerStep 0 s =
    { s with kcols := 0, kst := .releaseMiss, trace := s.trace ++ [.colSample 0] }) ∧
  (∀ (s : State) (v : BitVec 4), s.kst = .releaseHit → scannerStep v s =
    { s with row := 0, kst := .debounce, trace := s.trace ++ [.rowWrite 0] }) ∧
  (∀ (s : State) (v : BitVec 4), s.kst = .debounce → scannerStep v s =
    { s with kst := .ret, trace := s.trace ++ [.debounce] }) ∧
  (∀ (s : State) (v : BitVec 4), s.kst = .releaseMiss → scannerStep v s =
    { s with row := 0, kst := .ret, trace := s.trace ++ [.rowWrite 0] }) ∧
  (∀ (s : State) (v : BitVec 4), s.kst = .ret → ∃ k : Byte,
    k = (if s.kcols ≠ 0 then keymap s.krow (lowest s.kcols) else 0x00) ∧
    scannerStep v s =
      { s with key := k, kBusy := false, kDone := true, kNoted := true, kst := .idle, trace := s.trace ++ [.ret k] })

/-- A whole SCAN for any four answers of the environment: accepted, and eleven scanner steps leave the trace and the code of
the first active row and its lowest column, or none, with the rows inactive and the scanner idle; nothing outside the
scanner changes. (The host's note of the completion: assumption 8.) -/
def Obligations.ScanReportsFirstActiveCell : Prop :=
  ∀ (s : State) (v0 v1 v2 v3 : BitVec 4), s.kBusy = false →
    ∃ t, exec .scan s = .next t ∧
      (scannerRun [v0, v0, v1, v1, v2, v2, v3, v3, 0, 0, 0] t).trace =
        s.trace ++ [.issue 0xC000] ++ scanTraceFrom 0 [v0, v1, v2, v3] ∧
      (scannerRun [v0, v0, v1, v1, v2, v2, v3, v3, 0, 0, 0] t).key = scanKeyFrom 0 [v0, v1, v2, v3] ∧
      (scannerRun [v0, v0, v1, v1, v2, v2, v3, v3, 0, 0, 0] t).row = 0 ∧
      (scannerRun [v0, v0, v1, v1, v2, v2, v3, v3, 0, 0, 0] t).kBusy = false ∧
      (scannerRun [v0, v0, v1, v1, v2, v2, v3, v3, 0, 0, 0] t).kst = .idle ∧
      (scannerRun [v0, v0, v1, v1, v2, v2, v3, v3, 0, 0, 0] t).kNoted = true ∧
      outsideScanner s (scannerRun [v0, v0, v1, v1, v2, v2, v3, v3, 0, 0, 0] t)

/-- Under the ideal matrix with a constant set of pressed cells, SCAN returns the symbol of the pressed cell with the least
row and, in it, the least column, and "none" if no cell is pressed. -/
def Obligations.IdealMatrixScan : Prop :=
  ∀ s : State, s.kBusy = false →
    ∃ t, exec .scan s = .next t ∧
      (s.pressed = 0 → (scannerRunIdeal 11 t).key = 0x00) ∧
      ∀ r c : Fin 4, s.pressed.getLsbD (4 * r.val + c.val) = true →
        (∀ j, j < 4 * r.val + c.val → s.pressed.getLsbD j = false) →
        (scannerRunIdeal 11 t).key = keymap (BitVec.ofNat 2 r.val) (BitVec.ofNat 2 c.val)

/-- Every step keeps the scanner invariant, and in every state that has it at most one row is active. -/
def Obligations.ScannerInvariantKept : Prop :=
  (∀ s t : State, ScannerInv s → step s = .next t → ScannerInv t) ∧
  ∀ s : State, ScannerInv s → s.row = 0 ∨ ∃ r : BitVec 2, s.row = onehot r

/-- KEY changes only in the scanner's return: a step of any other kind but a reset leaves it, also a step of another agent
while the scanner stands at its return. -/
def Obligations.KeyKeptUntilReturn : Prop :=
  ∀ s t : State, step s = .next t → nextMove s ≠ .rst →
    (s.kst ≠ .ret ∨ (nextMove s ≠ .scannerIdeal ∧ ∀ v, nextMove s ≠ .scanner v)) → t.key = s.key

/-! ## The host -/

/-- The dispatch of 'A': RunState becomes Running and nothing else changes, in any state. -/
def Obligations.StartKeySetsRunning : Prop :=
  ∀ s : State, exec .keyA s = .next { s with runState := .running }

/-- The dispatch of 'B': RunState becomes Stopped and nothing else changes, the display included. -/
def Obligations.StopKeySetsStopped : Prop :=
  ∀ s : State, exec .keyB s = .next { s with runState := .stopped }

/-- The other thirteen symbols and "none" change nothing; a dispatch of any result but the three commands only sends the
foreground back to the loop's head. -/
def Obligations.OtherResultsChangeNothing : Prop :=
  (∀ (s : State) (i : Instr), i ∈ [Instr.key1, .key2, .key3, .key4, .key5, .key6, .key7, .key8, .key9, .keyStar, .key0,
      .keyHash, .keyD, .keyNone] → exec i s = .next s) ∧
  ∀ (s : State) (k : Byte), nextMove s = .foreground → s.host = .reference → s.handler = .idle → s.fg = .dispatch k →
    k ≠ 0x41 → k ≠ 0x42 → k ≠ 0x43 → step s = .next { takeMove s with fg := .issue 0xC000 .scan }

/-- The dispatch of 'C': RunState becomes Stopped first, then minutes become 0, then seconds become 0, one access a step,
ColonPhase is kept, and then one RENDER 0, 0, ColonPhase is issued; the foreground stays until its completion has been given to
the host, and then goes to the loop's head. Nothing else changes in a step of the sequence. (One access a step, and reading
ColonPhase a step of its own: assumption 12; the host's note of the pulse: assumption 8.) -/
def Obligations.ResetKeySequence : Prop :=
  (∀ s : State, exec .keyC s = .next { s with runState := .stopped, fg := .resetMinutes }) ∧
  (∀ (s : State) (ms : List Move), s.host = .reference → s.handler = .idle → s.fg = .dispatch 0x43 →
    runSteps 4 { s with moves := List.replicate 4 .foreground ++ ms } =
      .next { endPulses s with
        runState := .stopped, minutes := 0, seconds := 0, moves := ms
        fg := .issue (renderWord 0 0 s.colonPhase) .reset }) ∧
  (∀ s : State, nextMove s = .foreground → s.host = .reference → s.handler = .idle →
    (s.fg = .dispatch 0x43 → step s = .next { takeMove s with runState := .stopped, fg := .resetMinutes }) ∧
    (s.fg = .resetMinutes → step s = .next { takeMove s with minutes := 0, fg := .resetSeconds }) ∧
    (s.fg = .resetSeconds → step s = .next { takeMove s with seconds := 0, fg := .resetColon }) ∧
    (s.fg = .resetColon → step s = .next { takeMove s with fg := .issue (renderWord 0 0 s.colonPhase) .reset }) ∧
    (s.fg = .wait .reset → s.fNoted = false → step s = .next (takeMove s)) ∧
    (s.fg = .wait .reset → s.fNoted = true → step s = .next { takeMove s with fg := .issue 0xC000 .scan })) ∧
  ∀ (s : State) (c : Bool), nextMove s = .foreground → s.host = .reference → s.handler = .idle →
    s.fg = .issue (renderWord 0 0 c) .reset → s.fBusy = false →
    ∃ t, step s = .next t ∧ t.fg = .wait .reset ∧ t.fq = expand (.render 0 0 c) ∧ t.fBusy = true ∧
      t.trace = s.trace ++ [.issue (renderWord 0 0 c)] ∧ t.runState = s.runState ∧ t.minutes = s.minutes ∧
      t.seconds = s.seconds ∧ t.colonPhase = s.colonPhase

/-- A tick while Running advances the time by one second modulo one hour, toggles ColonPhase and presents the RENDER of the new
values; nothing else changes. The handler's moves are four, six where the seconds roll over, seven where the minutes do too.
(The number of moves rests on the joined actions of assumption 12.) -/
def Obligations.TickAdvancesTime : Prop :=
  ∀ (s : State) (ms : List Move) (n : Nat), s.host = .reference → s.handler = .readRun → s.runState = .running →
    s.minutes < 60 → s.seconds < 60 →
    n = (if s.seconds < 59 then 4 else if s.minutes < 59 then 6 else 7) →
    runSteps n { s with moves := List.replicate n .handler ++ ms } =
      .next { endPulses s with
        moves := ms
        minutes := ((60 * s.minutes + s.seconds + 1) % 3600) / 60
        seconds := ((60 * s.minutes + s.seconds + 1) % 3600) % 60
        colonPhase := !s.colonPhase
        handler := .issue (renderWord (BitVec.ofNat 6 (((60 * s.minutes + s.seconds + 1) % 3600) / 60))
          (BitVec.ofNat 6 (((60 * s.minutes + s.seconds + 1) % 3600) % 60)) (!s.colonPhase)) }

/-- A tick while Stopped is a no-op: the handler reads RunState and ends, and nothing else changes. -/
def Obligations.TickWhileStopped : Prop :=
  ∀ (s : State) (ms : List Move), s.host = .reference → s.tickEnabled = true → s.handler = .idle →
    s.runState = .stopped →
    runSteps 2 { s with moves := .tick :: .handler :: ms } = .next { endPulses s with moves := ms }

/-- The handler's RENDER: presented to an idle framer it is accepted and the handler waits; the handler ends once the
completion has been given to the host and not before, and nothing else changes at its end. (The host's note of the pulse:
assumption 8.) -/
def Obligations.TickRefreshCompletes : Prop :=
  (∀ (s : State) (m sec : BitVec 6) (c : Bool), nextMove s = .handler → s.host = .reference →
    s.handler = .issue (renderWord m sec c) → m.toNat ≤ 59 → sec.toNat ≤ 59 → s.fBusy = false →
    ∃ t, step s = .next t ∧ t.handler = .wait ∧ t.fq = expand (.render m sec c) ∧ t.fBusy = true ∧
      t.trace = s.trace ++ [.issue (renderWord m sec c)] ∧ scannerPart t = scannerPart s ∧ t.fg = s.fg) ∧
  (∀ s : State, nextMove s = .handler → s.handler = .wait → s.fNoted = false → step s = .next (takeMove s)) ∧
  ∀ s : State, nextMove s = .handler → s.host = .reference → s.handler = .wait → s.fNoted = true →
    step s = .next { takeMove s with handler := .idle }

/-- The tick: enabled and with no handler running it starts the handler; while the handler runs it is dropped, and before the
boot has enabled it nothing happens. (The drop is 60_exceptions.md R236; before the enabling: assumption 13.) -/
def Obligations.TickEntryAndDrop : Prop :=
  ∀ s : State, nextMove s = .tick →
    (s.host = .reference → s.tickEnabled = true → s.handler = .idle →
      step s = .next { takeMove s with handler := .readRun }) ∧
    (s.handler ≠ .idle → step s = .next (takeMove s)) ∧
    (s.tickEnabled = false → step s = .next (takeMove s))

/-- While a tick handler runs no foreground move has any effect. -/
def Obligations.HandlerBlocksForeground : Prop :=
  ∀ s : State, nextMove s = .foreground → s.handler ≠ .idle → step s = .next (takeMove s)

/-- The boot: with the peripheral ready the host variables take their initial values and RENDER 0, 0, COLON_INIT is issued;
the foreground stays until its completion has been given to the host, and then the tick is enabled and the foreground is at the
loop's head. With the peripheral not ready the boot waits without end. (The host's note of the pulse: assumption 8; the steps
and the one ready flag: assumptions 12, 15.) -/
def Obligations.BootSequence : Prop :=
  (∀ (s : State) (ms : List Move), s.host = .reference → s.fg = .bootInit → s.handler = .idle → s.periphReady = true →
    s.fBusy = false →
    ∃ u, runSteps 3 { s with moves := List.replicate 3 .foreground ++ ms } = .next u ∧
      u.runState = .stopped ∧ u.minutes = 0 ∧ u.seconds = 0 ∧ u.colonPhase = Config.colonInit ∧
      u.fg = .wait .boot ∧ u.fq = expand (.render 0 0 Config.colonInit) ∧ u.fBusy = true ∧
      u.trace = s.trace ++ [.issue (renderWord 0 0 Config.colonInit)] ∧ u.tickEnabled = s.tickEnabled ∧
      scannerPart u = scannerPart s ∧ u.moves = ms) ∧
  (∀ (s : State) (ms : List Move), s.host = .reference → s.fg = .wait .boot → s.handler = .idle → s.fNoted = true →
    runSteps 2 { s with moves := .foreground :: .foreground :: ms } =
      .next { endPulses s with tickEnabled := true, fg := .issue 0xC000 .scan, moves := ms }) ∧
  (∀ s : State, nextMove s = .foreground → s.handler = .idle → s.fg = .wait .boot → s.fNoted = false →
    step s = .next (takeMove s)) ∧
  ∀ s : State, nextMove s = .foreground → s.fg = .bootInit → s.handler = .idle → s.periphReady = false →
    step s = .next (takeMove s)

/-- One turn of the control loop: SCAN is issued and accepted by an idle scanner; the foreground waits until its completion has
been given to the host, then reads KEY and dispatches it. (The host's note of the pulse: assumption 8.) -/
def Obligations.ControlLoopTurn : Prop :=
  (∀ s : State, nextMove s = .foreground → s.host = .reference → s.handler = .idle → s.fg = .issue 0xC000 .scan →
    s.kBusy = false →
    ∃ t, step s = .next t ∧ t.fg = .wait .scan ∧ t.kst = .drive ∧ t.kBusy = true ∧
      t.trace = s.trace ++ [.issue 0xC000] ∧ framerPart t = framerPart s) ∧
  (∀ s : State, nextMove s = .foreground → s.handler = .idle → s.fg = .wait .scan → s.kNoted = false →
    step s = .next (takeMove s)) ∧
  ∀ (s : State) (ms : List Move), s.host = .reference → s.handler = .idle → s.fg = .wait .scan → s.kNoted = true →
    runSteps 2 { s with moves := .foreground :: .foreground :: ms } =
      .next { endPulses s with fg := .dispatch s.key, moves := ms }

/-- The reference host is never refused: in a run that it drives, from every state with the host invariant the step has a next
state, which has the invariant again (minutes and seconds in range, only words of the host's own table presented), and no state
of the run is final. -/
def Obligations.ReferenceHostNeverRefused : Prop :=
  ∀ s : State, HostInv s → s.host = .reference →
    ∃ t, step s = .next t ∧ HostInv t ∧ t.host = .reference ∧ finalState t = false

/-- The operator's moves: a pressed key is in the set of pressed cells and a released one is not, every other cell as before;
nothing else changes. -/
def Obligations.OperatorMovesKeys : Prop :=
  ∀ (s : State) (r c : Fin 4),
    (nextMove s = .press r c → ∃ p : BitVec 16, step s = .next { takeMove s with pressed := p } ∧
      p.getLsbD (4 * r.val + c.val) = true ∧
      ∀ j, j ≠ 4 * r.val + c.val → p.getLsbD j = s.pressed.getLsbD j) ∧
    (nextMove s = .release r c → ∃ p : BitVec 16, step s = .next { takeMove s with pressed := p } ∧
      p.getLsbD (4 * r.val + c.val) = false ∧
      ∀ j, j ≠ 4 * r.val + c.val → p.getLsbD j = s.pressed.getLsbD j)

/-! ## The whole machine -/

/-- A framer step and a scanner step may be taken in either order: the states agree but for the trace, and the trace's
projection onto each source agrees. As two steps of the machine they agree but for the trace and the pulses, of which only those
of the last step are up (assumption 8). -/
def Obligations.UnitStepsCommute : Prop :=
  ∀ (s : State) (v : BitVec 4),
    { framerStep (scannerStep v s) with trace := [] } = { scannerStep v (framerStep s) with trace := [] } ∧
    (∀ u : EventSource,
      eventsOf u (framerStep (scannerStep v s)).trace = eventsOf u (scannerStep v (framerStep s)).trace) ∧
    ∀ ms : List Move, ∃ t u,
      runSteps 2 { s with moves := .scanner v :: .framer :: ms } = .next t ∧
      runSteps 2 { s with moves := .framer :: .scanner v :: ms } = .next u ∧
      { endPulses t with trace := [] } = { endPulses u with trace := [] } ∧
      ∀ k : EventSource, eventsOf k t.trace = eventsOf k u.trace

/-- CLK and DIO change only in framer moves and ROW only in scanner moves, reset apart: no instruction and no other agent
disturbs a pin. -/
def Obligations.PinsChangeOnlyByTheirUnit : Prop :=
  ∀ s t : State, step s = .next t → nextMove s ≠ .rst →
    (nextMove s ≠ .framer → levels t = levels s) ∧
    (nextMove s ≠ .scannerIdeal → (∀ v, nextMove s ≠ .scanner v) → t.row = s.row)

/-- The completion pulses: after a step that was no reset, f_done is up exactly if that step completed a framer command, and
k_done exactly if it completed a scan; the host then has its note. (The pulse lasts one step and is a bit of State: assumption
8.) -/
def Obligations.CompletionPulses : Prop :=
  ∀ s t : State, FramerInv s → ScannerInv s → nextMove s ≠ .rst → step s = .next t →
    (t.fDone = true ↔ s.fBusy = true ∧ t.fBusy = false) ∧ (t.kDone = true ↔ s.kBusy = true ∧ t.kBusy = false) ∧
    (t.fDone = true → t.fNoted = true) ∧ (t.kDone = true → t.kNoted = true)

/-- Every command word the block looks at stands at its one port with cmd_valid, which is up exactly while the driving host
presents a word: an outside host while it has words left, the reference host while its running thread is at an `ISSUE`. A host
that does not drive the run does nothing, and no step changes which host drives it. (The two hosts exclude each other: assumption
4; the thread that presents: assumption 23.) -/
def Obligations.CommandsComeThroughThePort : Prop :=
  (∀ (s t : State) (w : Word), fetch (nextMove s) (takeMove s) = some (.word w, t) →
    cmdPort s = some w ∧ cmdValid s = true) ∧
  (∀ s : State, cmdValid s = true ↔
    (s.host = .program ∧ s.program ≠ []) ∨
      (s.host = .reference ∧ ((s.handler = .idle ∧ ∃ w c, s.fg = .issue w c) ∨ ∃ w, s.handler = .issue w))) ∧
  (∀ s : State, s.host = .program → nextMove s ∈ [Move.foreground, .handler, .tick] → step s = .next (takeMove s)) ∧
  (∀ s : State, s.host = .reference → nextMove s = .command → step s = .next (takeMove s)) ∧
  ∀ s t : State, step s = .next t → t.host = s.host

/-- The values reset gives, at State.reset and after an asserted rst from any state. -/
def Obligations.ResetValues : Prop :=
  ∀ s : State, nextMove s = .rst → ∃ t, step s = .next t ∧ ∀ u ∈ [State.reset, t],
    u.clk = true ∧ u.dio = true ∧ u.row = 0 ∧ u.fq = [] ∧ u.fBusy = false ∧
    u.ctr.fph = .idle ∧ u.ctr.fbyte = 0 ∧ u.ctr.fbit = 0 ∧ u.ctr.fsub = 0 ∧ u.ctr.ffr = 0 ∧
    u.kst = .idle ∧ u.kBusy = false ∧ u.key = 0x00 ∧ u.trace = [] ∧ u.runState = .stopped ∧ u.minutes = 0 ∧
    u.seconds = 0 ∧ u.colonPhase = Config.colonInit
end

