-- ==== Sys2Proof/Laws/Decode.lean ====
section
/-! SUPPORT. The fields of a command word as numbers, and everything the word decoder can answer. -/

namespace Sys2Proof

theorem opField_toNat (w : Word) : (opField w).toNat = w.toNat / 8192 := by
  have := w.isLt
  simp only [opField, BitVec.extractLsb'_toNat, Nat.shiftRight_eq_div_pow]
  omega

theorem argField_toNat (w : Word) : (argField w).toNat = w.toNat % 8192 := by
  simp only [argField, BitVec.extractLsb'_toNat, Nat.shiftRight_eq_div_pow]
  omega

theorem padField_toNat (w : Word) : (padField w).toNat = w.toNat / 256 % 32 := by
  simp only [padField, BitVec.extractLsb'_toNat, Nat.shiftRight_eq_div_pow]

theorem minutesField_toNat (w : Word) : (minutesField w).toNat = w.toNat / 64 % 64 := by
  simp only [minutesField, BitVec.extractLsb'_toNat, Nat.shiftRight_eq_div_pow]

theorem secondsField_toNat (w : Word) : (secondsField w).toNat = w.toNat % 64 := by
  simp only [secondsField, BitVec.extractLsb'_toNat, Nat.shiftRight_eq_div_pow]
  omega

theorem argField_eq_zero (w : Word) : argField w = 0 ↔ w.toNat % 8192 = 0 := by
  rw [← argField_toNat]
  exact ⟨fun h => by rw [h]; rfl, fun h => BitVec.eq_of_toNat_eq h⟩

theorem padField_eq_zero (w : Word) : padField w = 0 ↔ w.toNat / 256 % 32 = 0 := by
  rw [← padField_toNat]
  exact ⟨fun h => by rw [h]; rfl, fun h => BitVec.eq_of_toNat_eq h⟩

/-- What the word decoder answers, by the operation field. -/
theorem decodeWord_cases (w : Word) :
    (w.toNat / 8192 = 1 ∧ decodeWord w = if w.toNat % 8192 = 0 then .ok .start else .reserved) ∨
      (w.toNat / 8192 = 2 ∧ decodeWord w = if w.toNat % 8192 = 0 then .ok .stop else .reserved) ∨
      (w.toNat / 8192 = 3 ∧
        decodeWord w = if w.toNat / 256 % 32 = 0 then .ok (.wrbyte (byteField w)) else .reserved) ∨
      (w.toNat / 8192 = 4 ∧
        decodeWord w = if w.toNat / 256 % 32 = 0 then .ok (.sendframe (byteField w)) else .reserved) ∨
      (w.toNat / 8192 = 5 ∧
        decodeWord w =
          if w.toNat / 64 % 64 ≤ 59 ∧ w.toNat % 64 ≤ 59 then
            .ok (.render (minutesField w) (secondsField w) (colonField w))
          else .outOfDomain) ∨
      (w.toNat / 8192 = 6 ∧ decodeWord w = if w.toNat % 8192 = 0 then .ok .scan else .reserved) ∨
      ((w.toNat / 8192 = 0 ∨ w.toNat / 8192 = 7) ∧ decodeWord w = .reserved) := by
  have hw := w.isLt
  have : w.toNat / 8192 < 8 := by omega
  unfold decodeWord
  simp only [opField_toNat, argField_eq_zero, padField_eq_zero, timeInDomain, minutesField_toNat, secondsField_toNat,
    Bool.and_eq_true, decide_eq_true_eq]
  generalize w.toNat / 8192 = n at *
  interval_cases n <;> simp

/-- The fields of the word of RENDER are its operands. -/
theorem renderWord_fields (m s : BitVec 6) (c : Bool) :
    opField (renderWord m s c) = 5 ∧ minutesField (renderWord m s c) = m ∧ secondsField (renderWord m s c) = s ∧
      colonField (renderWord m s c) = c := by
  refine ⟨?_, ?_, ?_, ?_⟩
  · ext i hi; simp only [renderWord, opField]; interval_cases i <;> simp
  · ext i hi; simp only [renderWord, minutesField]; interval_cases i <;> simp
  · ext i hi; simp only [renderWord, secondsField]; interval_cases i <;> simp
  · simp only [renderWord, colonField]; cases c <;> simp

/-- What the word of RENDER decodes to, in its domain and outside it. -/
theorem decodeWord_renderWord (m s : BitVec 6) (c : Bool) :
    decodeWord (renderWord m s c) =
      if (timeInDomain m && timeInDomain s) = true then .ok (.render m s c) else .outOfDomain := by
  obtain ⟨h1, h2, h3, h4⟩ := renderWord_fields m s c
  simp [decodeWord, h1, h2, h3, h4]

end Sys2Proof
end

