-- ==== Sys2Proof/Laws/Lists.lean ====
section
/-! SUPPORT. Event lists: how levels, waveforms, counts and the monitor read a list that is two lists one after the other. -/

namespace Sys2Proof.Machine

theorem finalLevels_append (p : Bool × Bool) (es fs : List FrEvent) :
    finalLevels p (es ++ fs) = finalLevels (finalLevels p es) fs := by
  induction es generalizing p with
  | nil => rfl
  | cons e es ih => exact ih (levelsAfter p e)

theorem waveTail_append (p : Bool × Bool) (es fs : List FrEvent) :
    waveTail p (es ++ fs) = waveTail p es ++ waveTail (finalLevels p es) fs := by
  induction es generalizing p with
  | nil => rfl
  | cons e es ih =>
    simp only [List.cons_append, waveTail, finalLevels, ih]
    split
    · rename_i h
      rw [h]
    · rfl

/-- The last entry of a waveform is the levels its events leave. -/
theorem waveTail_getLast (p : Bool × Bool) (es : List FrEvent) :
    (waveTail p es).getLast?.getD p = finalLevels p es := by
  induction es generalizing p with
  | nil => rfl
  | cons e es ih =>
    simp only [waveTail, finalLevels]
    split
    · rename_i h
      rw [h]
      exact ih p
    · rw [← ih (levelsAfter p e)]
      cases waveTail (levelsAfter p e) es with
      | nil => rfl
      | cons r rs => simp [List.getLast?_cons]

theorem monitorFold_append (m : Monitor) (p : Bool × Bool) (qs rs : List (Bool × Bool)) :
    monitorFold m p (qs ++ rs) = monitorFold (monitorFold m p qs) (qs.getLast?.getD p) rs := by
  induction qs generalizing m p with
  | nil => rfl
  | cons q qs ih =>
    simp only [List.cons_append, monitorFold, ih]
    congr 1
    cases qs with
    | nil => rfl
    | cons r rs => simp [List.getLast?_cons]

/-- A pair of equal levels changes nothing in the monitor. -/
theorem monitorEdge_same (p : Bool × Bool) (m : Monitor) : monitorEdge p p m = m := by
  obtain ⟨a, b⟩ := p
  unfold monitorEdge
  cases a <;> cases b <;> simp

theorem framerEvents_append (a b : List Event) : framerEvents (a ++ b) = framerEvents a ++ framerEvents b := by
  induction a with
  | nil => rfl
  | cons e es ih => cases e <;> simp [framerEvents, ih]

theorem eventsOf_append (u : EventSource) (a b : List Event) : eventsOf u (a ++ b) = eventsOf u a ++ eventsOf u b := by
  simp [eventsOf]

theorem writeCount_append (a b : List FrEvent) : writeCount (a ++ b) = writeCount a + writeCount b := by simp [writeCount]

theorem settleCount_append (a b : List FrEvent) : settleCount (a ++ b) = settleCount a + settleCount b := by
  simp [settleCount]

theorem length_expandWrbyte (b : Byte) : (expandWrbyte b).length = 52 := rfl

theorem length_expandBytes (bs : List Byte) : (expandBytes bs).length = 52 * bs.length := by
  induction bs with
  | nil => rfl
  | cons b bs ih =>
    simp only [expandBytes, List.length_append, ih, length_expandWrbyte, List.length_cons]
    omega

theorem length_frame (bs : List Byte) : (frame bs).length = 14 + 52 * bs.length := by
  have h1 : expandStart.length = 6 := rfl
  have h2 : expandStop.length = 8 := rfl
  simp only [frame, List.length_append, length_expandBytes, h1, h2]
  omega

end Sys2Proof.Machine
end

