-- ==== Sys2Proof/Laws/Memory.lean ====
section
/-! SUPPORT. The display memory: reading after writing, and every operation keeps the canonical form. -/

namespace Sys2Proof.Machine

@[simp] theorem Memory.read_nil (a : Nat) : Memory.read [] a = none := rfl

@[simp] theorem Memory.read_write_same (m : Memory) (a : Nat) (b : Byte) : (m.write a b).read a = some b := by
  induction m with
  | nil => simp [Memory.write, Memory.read]
  | cons c rest ih =>
    obtain ⟨x, y⟩ := c
    by_cases h1 : a < x
    · simp [Memory.write, Memory.read, h1]
    · by_cases h2 : a = x
      · simp [Memory.write, Memory.read, h2]
      · simp [Memory.write, Memory.read, h1, h2, Ne.symm h2, ih]

theorem Memory.read_write_other (m : Memory) {a a' : Nat} (b : Byte) (h : a' ≠ a) :
    (m.write a b).read a' = m.read a' := by
  induction m with
  | nil => simp [Memory.write, Memory.read, Ne.symm h]
  | cons c rest ih =>
    obtain ⟨x, y⟩ := c
    by_cases h1 : a < x
    · simp [Memory.write, Memory.read, h1, Ne.symm h]
    · by_cases h2 : a = x
      · subst h2; simp [Memory.write, Memory.read, Ne.symm h]
      · simp only [Memory.write, h1, h2, if_false, Memory.read, ih]

/-- What a write leaves in memory: the cell written and cells that were there. -/
theorem Memory.mem_write {m : Memory} {a : Nat} {b : Byte} {c : Host.Cell} (h : c ∈ m.write a b) :
    c = (a, b) ∨ c ∈ m := by
  induction m with
  | nil => simpa [Memory.write] using h
  | cons d rest ih =>
    obtain ⟨x, y⟩ := d
    by_cases h1 : a < x
    · simp only [Memory.write, h1, if_true, List.mem_cons] at h ⊢
      tauto
    · by_cases h2 : a = x
      · simp only [Memory.write, h2, if_false, if_true, List.mem_cons, lt_irrefl] at h ⊢
        tauto
      · simp only [Memory.write, h1, h2, if_false, List.mem_cons] at h ⊢
        rcases h with h | h
        · exact .inr (.inl h)
        · rcases ih h with h | h
          · exact .inl h
          · exact .inr (.inr h)

theorem Memory.wf_iff (m : Memory) : m.wf = true ↔ m.Pairwise fun x y => x.1 < y.1 := by simp [Memory.wf]

/-- Writing keeps the canonical form. -/
theorem Memory.wf_write {m : Memory} (a : Nat) (b : Byte) (h : m.wf = true) : (m.write a b).wf = true := by
  rw [Memory.wf_iff] at h ⊢
  induction m with
  | nil => simp [Memory.write]
  | cons d rest ih =>
    obtain ⟨x, y⟩ := d
    have h' := List.pairwise_cons.mp h
    by_cases h1 : a < x
    · simp only [Memory.write, h1, if_true]
      refine List.pairwise_cons.mpr ⟨fun c hc => ?_, h⟩
      rcases List.mem_cons.mp hc with rfl | hc
      · exact h1
      · exact h1.trans (h'.1 c hc)
    · by_cases h2 : a = x
      · subst h2
        simp only [Memory.write, lt_irrefl, if_false, if_true]
        exact List.pairwise_cons.mpr ⟨fun c hc => h'.1 c hc, h'.2⟩
      · simp only [Memory.write, h1, h2, if_false]
        refine List.pairwise_cons.mpr ⟨fun c hc => ?_, ih h'.2⟩
        rcases Memory.mem_write hc with rfl | hc
        · exact lt_of_le_of_ne (not_lt.mp h1) (Ne.symm h2)
        · exact h'.1 c hc

/-- The burst keeps the canonical form. -/
theorem Memory.wf_writeFrom {m : Memory} (a : Nat) (bs : List Byte) (h : m.wf = true) : (m.writeFrom a bs).wf = true := by
  induction bs generalizing m a with
  | nil => exact h
  | cons b bs ih => exact ih (a + 1) (Memory.wf_write a b h)

/-- The burst leaves every address below its start and past its end. -/
theorem Memory.read_writeFrom_other (m : Memory) (a a' : Nat) (bs : List Byte) (h : a' < a ∨ a + bs.length ≤ a') :
    (m.writeFrom a bs).read a' = m.read a' := by
  induction bs generalizing m a with
  | nil => rfl
  | cons b bs ih =>
    have hl : (b :: bs).length = bs.length + 1 := rfl
    rw [Memory.writeFrom, ih _ _ (by omega)]
    exact Memory.read_write_other m b (by omega)

end Sys2Proof.Machine
end

