-- ==== Sys2Proof/Laws/State.lean ====
section
/-! SUPPORT. One lemma per field per update: what each named operation leaves in each field, so that no proof unfolds a record
update. -/

namespace Sys2Proof.Machine

/-! ## `record` -/

@[simp] theorem record_clk (e : Event) (s : State) : (record e s).clk = s.clk := rfl
@[simp] theorem record_dio (e : Event) (s : State) : (record e s).dio = s.dio := rfl
@[simp] theorem record_row (e : Event) (s : State) : (record e s).row = s.row := rfl
@[simp] theorem record_fcmd (e : Event) (s : State) : (record e s).fcmd = s.fcmd := rfl
@[simp] theorem record_shr (e : Event) (s : State) : (record e s).shr = s.shr := rfl
@[simp] theorem record_df (e : Event) (s : State) : (record e s).df = s.df := rfl
@[simp] theorem record_fq (e : Event) (s : State) : (record e s).fq = s.fq := rfl
@[simp] theorem record_fBusy (e : Event) (s : State) : (record e s).fBusy = s.fBusy := rfl
@[simp] theorem record_fDone (e : Event) (s : State) : (record e s).fDone = s.fDone := rfl
@[simp] theorem record_fNoted (e : Event) (s : State) : (record e s).fNoted = s.fNoted := rfl
@[simp] theorem record_ctr (e : Event) (s : State) : (record e s).ctr = s.ctr := rfl
@[simp] theorem record_krow (e : Event) (s : State) : (record e s).krow = s.krow := rfl
@[simp] theorem record_kcols (e : Event) (s : State) : (record e s).kcols = s.kcols := rfl
@[simp] theorem record_kst (e : Event) (s : State) : (record e s).kst = s.kst := rfl
@[simp] theorem record_kBusy (e : Event) (s : State) : (record e s).kBusy = s.kBusy := rfl
@[simp] theorem record_kDone (e : Event) (s : State) : (record e s).kDone = s.kDone := rfl
@[simp] theorem record_kNoted (e : Event) (s : State) : (record e s).kNoted = s.kNoted := rfl
@[simp] theorem record_key (e : Event) (s : State) : (record e s).key = s.key := rfl
@[simp] theorem record_runState (e : Event) (s : State) : (record e s).runState = s.runState := rfl
@[simp] theorem record_minutes (e : Event) (s : State) : (record e s).minutes = s.minutes := rfl
@[simp] theorem record_seconds (e : Event) (s : State) : (record e s).seconds = s.seconds := rfl
@[simp] theorem record_colonPhase (e : Event) (s : State) : (record e s).colonPhase = s.colonPhase := rfl
@[simp] theorem record_fg (e : Event) (s : State) : (record e s).fg = s.fg := rfl
@[simp] theorem record_handler (e : Event) (s : State) : (record e s).handler = s.handler := rfl
@[simp] theorem record_tickEnabled (e : Event) (s : State) : (record e s).tickEnabled = s.tickEnabled := rfl
@[simp] theorem record_periphReady (e : Event) (s : State) : (record e s).periphReady = s.periphReady := rfl
@[simp] theorem record_trace (e : Event) (s : State) : (record e s).trace = s.trace ++ [e] := rfl
@[simp] theorem record_mon (e : Event) (s : State) : (record e s).mon = s.mon := rfl
@[simp] theorem record_sink (e : Event) (s : State) : (record e s).sink = s.sink := rfl
@[simp] theorem record_dm (e : Event) (s : State) : (record e s).dm = s.dm := rfl
@[simp] theorem record_pressed (e : Event) (s : State) : (record e s).pressed = s.pressed := rfl
@[simp] theorem record_host (e : Event) (s : State) : (record e s).host = s.host := rfl
@[simp] theorem record_program (e : Event) (s : State) : (record e s).program = s.program := rfl
@[simp] theorem record_moves (e : Event) (s : State) : (record e s).moves = s.moves := rfl
@[simp] theorem record_draws (e : Event) (s : State) : (record e s).draws = s.draws := rfl

/-! ## `observe` -/

@[simp] theorem observe_clk (q : Bool × Bool) (s : State) : (observe q s).clk = q.1 := rfl
@[simp] theorem observe_dio (q : Bool × Bool) (s : State) : (observe q s).dio = q.2 := rfl
@[simp] theorem observe_row (q : Bool × Bool) (s : State) : (observe q s).row = s.row := rfl
@[simp] theorem observe_fcmd (q : Bool × Bool) (s : State) : (observe q s).fcmd = s.fcmd := rfl
@[simp] theorem observe_shr (q : Bool × Bool) (s : State) : (observe q s).shr = s.shr := rfl
@[simp] theorem observe_df (q : Bool × Bool) (s : State) : (observe q s).df = s.df := rfl
@[simp] theorem observe_fq (q : Bool × Bool) (s : State) : (observe q s).fq = s.fq := rfl
@[simp] theorem observe_fBusy (q : Bool × Bool) (s : State) : (observe q s).fBusy = s.fBusy := rfl
@[simp] theorem observe_fDone (q : Bool × Bool) (s : State) : (observe q s).fDone = s.fDone := rfl
@[simp] theorem observe_fNoted (q : Bool × Bool) (s : State) : (observe q s).fNoted = s.fNoted := rfl
@[simp] theorem observe_ctr (q : Bool × Bool) (s : State) : (observe q s).ctr = s.ctr := rfl
@[simp] theorem observe_krow (q : Bool × Bool) (s : State) : (observe q s).krow = s.krow := rfl
@[simp] theorem observe_kcols (q : Bool × Bool) (s : State) : (observe q s).kcols = s.kcols := rfl
@[simp] theorem observe_kst (q : Bool × Bool) (s : State) : (observe q s).kst = s.kst := rfl
@[simp] theorem observe_kBusy (q : Bool × Bool) (s : State) : (observe q s).kBusy = s.kBusy := rfl
@[simp] theorem observe_kDone (q : Bool × Bool) (s : State) : (observe q s).kDone = s.kDone := rfl
@[simp] theorem observe_kNoted (q : Bool × Bool) (s : State) : (observe q s).kNoted = s.kNoted := rfl
@[simp] theorem observe_key (q : Bool × Bool) (s : State) : (observe q s).key = s.key := rfl
@[simp] theorem observe_runState (q : Bool × Bool) (s : State) : (observe q s).runState = s.runState := rfl
@[simp] theorem observe_minutes (q : Bool × Bool) (s : State) : (observe q s).minutes = s.minutes := rfl
@[simp] theorem observe_seconds (q : Bool × Bool) (s : State) : (observe q s).seconds = s.seconds := rfl
@[simp] theorem observe_colonPhase (q : Bool × Bool) (s : State) : (observe q s).colonPhase = s.colonPhase := rfl
@[simp] theorem observe_fg (q : Bool × Bool) (s : State) : (observe q s).fg = s.fg := rfl
@[simp] theorem observe_handler (q : Bool × Bool) (s : State) : (observe q s).handler = s.handler := rfl
@[simp] theorem observe_tickEnabled (q : Bool × Bool) (s : State) : (observe q s).tickEnabled = s.tickEnabled := rfl
@[simp] theorem observe_periphReady (q : Bool × Bool) (s : State) : (observe q s).periphReady = s.periphReady := rfl
@[simp] theorem observe_trace (q : Bool × Bool) (s : State) : (observe q s).trace = s.trace := rfl
@[simp] theorem observe_mon (q : Bool × Bool) (s : State) : (observe q s).mon = monitorEdge (levels s) q s.mon := rfl
@[simp] theorem observe_sink (q : Bool × Bool) (s : State) : (observe q s).sink = { s.sink with inbox := s.sink.inbox ++ (monitorEdge (levels s) q s.mon).out.drop s.mon.out.length } := rfl
@[simp] theorem observe_dm (q : Bool × Bool) (s : State) : (observe q s).dm = s.dm := rfl
@[simp] theorem observe_pressed (q : Bool × Bool) (s : State) : (observe q s).pressed = s.pressed := rfl
@[simp] theorem observe_host (q : Bool × Bool) (s : State) : (observe q s).host = s.host := rfl
@[simp] theorem observe_program (q : Bool × Bool) (s : State) : (observe q s).program = s.program := rfl
@[simp] theorem observe_moves (q : Bool × Bool) (s : State) : (observe q s).moves = s.moves := rfl
@[simp] theorem observe_draws (q : Bool × Bool) (s : State) : (observe q s).draws = s.draws := rfl

/-! ## `rowWrite` -/

@[simp] theorem rowWrite_clk (v : BitVec 4) (s : State) : (rowWrite v s).clk = s.clk := rfl
@[simp] theorem rowWrite_dio (v : BitVec 4) (s : State) : (rowWrite v s).dio = s.dio := rfl
@[simp] theorem rowWrite_row (v : BitVec 4) (s : State) : (rowWrite v s).row = v := rfl
@[simp] theorem rowWrite_fcmd (v : BitVec 4) (s : State) : (rowWrite v s).fcmd = s.fcmd := rfl
@[simp] theorem rowWrite_shr (v : BitVec 4) (s : State) : (rowWrite v s).shr = s.shr := rfl
@[simp] theorem rowWrite_df (v : BitVec 4) (s : State) : (rowWrite v s).df = s.df := rfl
@[simp] theorem rowWrite_fq (v : BitVec 4) (s : State) : (rowWrite v s).fq = s.fq := rfl
@[simp] theorem rowWrite_fBusy (v : BitVec 4) (s : State) : (rowWrite v s).fBusy = s.fBusy := rfl
@[simp] theorem rowWrite_fDone (v : BitVec 4) (s : State) : (rowWrite v s).fDone = s.fDone := rfl
@[simp] theorem rowWrite_fNoted (v : BitVec 4) (s : State) : (rowWrite v s).fNoted = s.fNoted := rfl
@[simp] theorem rowWrite_ctr (v : BitVec 4) (s : State) : (rowWrite v s).ctr = s.ctr := rfl
@[simp] theorem rowWrite_krow (v : BitVec 4) (s : State) : (rowWrite v s).krow = s.krow := rfl
@[simp] theorem rowWrite_kcols (v : BitVec 4) (s : State) : (rowWrite v s).kcols = s.kcols := rfl
@[simp] theorem rowWrite_kst (v : BitVec 4) (s : State) : (rowWrite v s).kst = s.kst := rfl
@[simp] theorem rowWrite_kBusy (v : BitVec 4) (s : State) : (rowWrite v s).kBusy = s.kBusy := rfl
@[simp] theorem rowWrite_kDone (v : BitVec 4) (s : State) : (rowWrite v s).kDone = s.kDone := rfl
@[simp] theorem rowWrite_kNoted (v : BitVec 4) (s : State) : (rowWrite v s).kNoted = s.kNoted := rfl
@[simp] theorem rowWrite_key (v : BitVec 4) (s : State) : (rowWrite v s).key = s.key := rfl
@[simp] theorem rowWrite_runState (v : BitVec 4) (s : State) : (rowWrite v s).runState = s.runState := rfl
@[simp] theorem rowWrite_minutes (v : BitVec 4) (s : State) : (rowWrite v s).minutes = s.minutes := rfl
@[simp] theorem rowWrite_seconds (v : BitVec 4) (s : State) : (rowWrite v s).seconds = s.seconds := rfl
@[simp] theorem rowWrite_colonPhase (v : BitVec 4) (s : State) : (rowWrite v s).colonPhase = s.colonPhase := rfl
@[simp] theorem rowWrite_fg (v : BitVec 4) (s : State) : (rowWrite v s).fg = s.fg := rfl
@[simp] theorem rowWrite_handler (v : BitVec 4) (s : State) : (rowWrite v s).handler = s.handler := rfl
@[simp] theorem rowWrite_tickEnabled (v : BitVec 4) (s : State) : (rowWrite v s).tickEnabled = s.tickEnabled := rfl
@[simp] theorem rowWrite_periphReady (v : BitVec 4) (s : State) : (rowWrite v s).periphReady = s.periphReady := rfl
@[simp] theorem rowWrite_trace (v : BitVec 4) (s : State) : (rowWrite v s).trace = s.trace ++ [.rowWrite v] := rfl
@[simp] theorem rowWrite_mon (v : BitVec 4) (s : State) : (rowWrite v s).mon = s.mon := rfl
@[simp] theorem rowWrite_sink (v : BitVec 4) (s : State) : (rowWrite v s).sink = s.sink := rfl
@[simp] theorem rowWrite_dm (v : BitVec 4) (s : State) : (rowWrite v s).dm = s.dm := rfl
@[simp] theorem rowWrite_pressed (v : BitVec 4) (s : State) : (rowWrite v s).pressed = s.pressed := rfl
@[simp] theorem rowWrite_host (v : BitVec 4) (s : State) : (rowWrite v s).host = s.host := rfl
@[simp] theorem rowWrite_program (v : BitVec 4) (s : State) : (rowWrite v s).program = s.program := rfl
@[simp] theorem rowWrite_moves (v : BitVec 4) (s : State) : (rowWrite v s).moves = s.moves := rfl
@[simp] theorem rowWrite_draws (v : BitVec 4) (s : State) : (rowWrite v s).draws = s.draws := rfl

/-! ## `colSample` -/

@[simp] theorem colSample_clk (v : BitVec 4) (s : State) : (colSample v s).clk = s.clk := rfl
@[simp] theorem colSample_dio (v : BitVec 4) (s : State) : (colSample v s).dio = s.dio := rfl
@[simp] theorem colSample_row (v : BitVec 4) (s : State) : (colSample v s).row = s.row := rfl
@[simp] theorem colSample_fcmd (v : BitVec 4) (s : State) : (colSample v s).fcmd = s.fcmd := rfl
@[simp] theorem colSample_shr (v : BitVec 4) (s : State) : (colSample v s).shr = s.shr := rfl
@[simp] theorem colSample_df (v : BitVec 4) (s : State) : (colSample v s).df = s.df := rfl
@[simp] theorem colSample_fq (v : BitVec 4) (s : State) : (colSample v s).fq = s.fq := rfl
@[simp] theorem colSample_fBusy (v : BitVec 4) (s : State) : (colSample v s).fBusy = s.fBusy := rfl
@[simp] theorem colSample_fDone (v : BitVec 4) (s : State) : (colSample v s).fDone = s.fDone := rfl
@[simp] theorem colSample_fNoted (v : BitVec 4) (s : State) : (colSample v s).fNoted = s.fNoted := rfl
@[simp] theorem colSample_ctr (v : BitVec 4) (s : State) : (colSample v s).ctr = s.ctr := rfl
@[simp] theorem colSample_krow (v : BitVec 4) (s : State) : (colSample v s).krow = s.krow := rfl
@[simp] theorem colSample_kcols (v : BitVec 4) (s : State) : (colSample v s).kcols = v := rfl
@[simp] theorem colSample_kst (v : BitVec 4) (s : State) : (colSample v s).kst = s.kst := rfl
@[simp] theorem colSample_kBusy (v : BitVec 4) (s : State) : (colSample v s).kBusy = s.kBusy := rfl
@[simp] theorem colSample_kDone (v : BitVec 4) (s : State) : (colSample v s).kDone = s.kDone := rfl
@[simp] theorem colSample_kNoted (v : BitVec 4) (s : State) : (colSample v s).kNoted = s.kNoted := rfl
@[simp] theorem colSample_key (v : BitVec 4) (s : State) : (colSample v s).key = s.key := rfl
@[simp] theorem colSample_runState (v : BitVec 4) (s : State) : (colSample v s).runState = s.runState := rfl
@[simp] theorem colSample_minutes (v : BitVec 4) (s : State) : (colSample v s).minutes = s.minutes := rfl
@[simp] theorem colSample_seconds (v : BitVec 4) (s : State) : (colSample v s).seconds = s.seconds := rfl
@[simp] theorem colSample_colonPhase (v : BitVec 4) (s : State) : (colSample v s).colonPhase = s.colonPhase := rfl
@[simp] theorem colSample_fg (v : BitVec 4) (s : State) : (colSample v s).fg = s.fg := rfl
@[simp] theorem colSample_handler (v : BitVec 4) (s : State) : (colSample v s).handler = s.handler := rfl
@[simp] theorem colSample_tickEnabled (v : BitVec 4) (s : State) : (colSample v s).tickEnabled = s.tickEnabled := rfl
@[simp] theorem colSample_periphReady (v : BitVec 4) (s : State) : (colSample v s).periphReady = s.periphReady := rfl
@[simp] theorem colSample_trace (v : BitVec 4) (s : State) : (colSample v s).trace = s.trace ++ [.colSample v] := rfl
@[simp] theorem colSample_mon (v : BitVec 4) (s : State) : (colSample v s).mon = s.mon := rfl
@[simp] theorem colSample_sink (v : BitVec 4) (s : State) : (colSample v s).sink = s.sink := rfl
@[simp] theorem colSample_dm (v : BitVec 4) (s : State) : (colSample v s).dm = s.dm := rfl
@[simp] theorem colSample_pressed (v : BitVec 4) (s : State) : (colSample v s).pressed = s.pressed := rfl
@[simp] theorem colSample_host (v : BitVec 4) (s : State) : (colSample v s).host = s.host := rfl
@[simp] theorem colSample_program (v : BitVec 4) (s : State) : (colSample v s).program = s.program := rfl
@[simp] theorem colSample_moves (v : BitVec 4) (s : State) : (colSample v s).moves = s.moves := rfl
@[simp] theorem colSample_draws (v : BitVec 4) (s : State) : (colSample v s).draws = s.draws := rfl

/-! ## `waitDebounce` -/

@[simp] theorem waitDebounce_clk (s : State) : (waitDebounce s).clk = s.clk := rfl
@[simp] theorem waitDebounce_dio (s : State) : (waitDebounce s).dio = s.dio := rfl
@[simp] theorem waitDebounce_row (s : State) : (waitDebounce s).row = s.row := rfl
@[simp] theorem waitDebounce_fcmd (s : State) : (waitDebounce s).fcmd = s.fcmd := rfl
@[simp] theorem waitDebounce_shr (s : State) : (waitDebounce s).shr = s.shr := rfl
@[simp] theorem waitDebounce_df (s : State) : (waitDebounce s).df = s.df := rfl
@[simp] theorem waitDebounce_fq (s : State) : (waitDebounce s).fq = s.fq := rfl
@[simp] theorem waitDebounce_fBusy (s : State) : (waitDebounce s).fBusy = s.fBusy := rfl
@[simp] theorem waitDebounce_fDone (s : State) : (waitDebounce s).fDone = s.fDone := rfl
@[simp] theorem waitDebounce_fNoted (s : State) : (waitDebounce s).fNoted = s.fNoted := rfl
@[simp] theorem waitDebounce_ctr (s : State) : (waitDebounce s).ctr = s.ctr := rfl
@[simp] theorem waitDebounce_krow (s : State) : (waitDebounce s).krow = s.krow := rfl
@[simp] theorem waitDebounce_kcols (s : State) : (waitDebounce s).kcols = s.kcols := rfl
@[simp] theorem waitDebounce_kst (s : State) : (waitDebounce s).kst = s.kst := rfl
@[simp] theorem waitDebounce_kBusy (s : State) : (waitDebounce s).kBusy = s.kBusy := rfl
@[simp] theorem waitDebounce_kDone (s : State) : (waitDebounce s).kDone = s.kDone := rfl
@[simp] theorem waitDebounce_kNoted (s : State) : (waitDebounce s).kNoted = s.kNoted := rfl
@[simp] theorem waitDebounce_key (s : State) : (waitDebounce s).key = s.key := rfl
@[simp] theorem waitDebounce_runState (s : State) : (waitDebounce s).runState = s.runState := rfl
@[simp] theorem waitDebounce_minutes (s : State) : (waitDebounce s).minutes = s.minutes := rfl
@[simp] theorem waitDebounce_seconds (s : State) : (waitDebounce s).seconds = s.seconds := rfl
@[simp] theorem waitDebounce_colonPhase (s : State) : (waitDebounce s).colonPhase = s.colonPhase := rfl
@[simp] theorem waitDebounce_fg (s : State) : (waitDebounce s).fg = s.fg := rfl
@[simp] theorem waitDebounce_handler (s : State) : (waitDebounce s).handler = s.handler := rfl
@[simp] theorem waitDebounce_tickEnabled (s : State) : (waitDebounce s).tickEnabled = s.tickEnabled := rfl
@[simp] theorem waitDebounce_periphReady (s : State) : (waitDebounce s).periphReady = s.periphReady := rfl
@[simp] theorem waitDebounce_trace (s : State) : (waitDebounce s).trace = s.trace ++ [.debounce] := rfl
@[simp] theorem waitDebounce_mon (s : State) : (waitDebounce s).mon = s.mon := rfl
@[simp] theorem waitDebounce_sink (s : State) : (waitDebounce s).sink = s.sink := rfl
@[simp] theorem waitDebounce_dm (s : State) : (waitDebounce s).dm = s.dm := rfl
@[simp] theorem waitDebounce_pressed (s : State) : (waitDebounce s).pressed = s.pressed := rfl
@[simp] theorem waitDebounce_host (s : State) : (waitDebounce s).host = s.host := rfl
@[simp] theorem waitDebounce_program (s : State) : (waitDebounce s).program = s.program := rfl
@[simp] theorem waitDebounce_moves (s : State) : (waitDebounce s).moves = s.moves := rfl
@[simp] theorem waitDebounce_draws (s : State) : (waitDebounce s).draws = s.draws := rfl

/-! ## `endPulses` -/

@[simp] theorem endPulses_clk (s : State) : (endPulses s).clk = s.clk := rfl
@[simp] theorem endPulses_dio (s : State) : (endPulses s).dio = s.dio := rfl
@[simp] theorem endPulses_row (s : State) : (endPulses s).row = s.row := rfl
@[simp] theorem endPulses_fcmd (s : State) : (endPulses s).fcmd = s.fcmd := rfl
@[simp] theorem endPulses_shr (s : State) : (endPulses s).shr = s.shr := rfl
@[simp] theorem endPulses_df (s : State) : (endPulses s).df = s.df := rfl
@[simp] theorem endPulses_fq (s : State) : (endPulses s).fq = s.fq := rfl
@[simp] theorem endPulses_fBusy (s : State) : (endPulses s).fBusy = s.fBusy := rfl
@[simp] theorem endPulses_fDone (s : State) : (endPulses s).fDone = false := rfl
@[simp] theorem endPulses_fNoted (s : State) : (endPulses s).fNoted = s.fNoted := rfl
@[simp] theorem endPulses_ctr (s : State) : (endPulses s).ctr = s.ctr := rfl
@[simp] theorem endPulses_krow (s : State) : (endPulses s).krow = s.krow := rfl
@[simp] theorem endPulses_kcols (s : State) : (endPulses s).kcols = s.kcols := rfl
@[simp] theorem endPulses_kst (s : State) : (endPulses s).kst = s.kst := rfl
@[simp] theorem endPulses_kBusy (s : State) : (endPulses s).kBusy = s.kBusy := rfl
@[simp] theorem endPulses_kDone (s : State) : (endPulses s).kDone = false := rfl
@[simp] theorem endPulses_kNoted (s : State) : (endPulses s).kNoted = s.kNoted := rfl
@[simp] theorem endPulses_key (s : State) : (endPulses s).key = s.key := rfl
@[simp] theorem endPulses_runState (s : State) : (endPulses s).runState = s.runState := rfl
@[simp] theorem endPulses_minutes (s : State) : (endPulses s).minutes = s.minutes := rfl
@[simp] theorem endPulses_seconds (s : State) : (endPulses s).seconds = s.seconds := rfl
@[simp] theorem endPulses_colonPhase (s : State) : (endPulses s).colonPhase = s.colonPhase := rfl
@[simp] theorem endPulses_fg (s : State) : (endPulses s).fg = s.fg := rfl
@[simp] theorem endPulses_handler (s : State) : (endPulses s).handler = s.handler := rfl
@[simp] theorem endPulses_tickEnabled (s : State) : (endPulses s).tickEnabled = s.tickEnabled := rfl
@[simp] theorem endPulses_periphReady (s : State) : (endPulses s).periphReady = s.periphReady := rfl
@[simp] theorem endPulses_trace (s : State) : (endPulses s).trace = s.trace := rfl
@[simp] theorem endPulses_mon (s : State) : (endPulses s).mon = s.mon := rfl
@[simp] theorem endPulses_sink (s : State) : (endPulses s).sink = s.sink := rfl
@[simp] theorem endPulses_dm (s : State) : (endPulses s).dm = s.dm := rfl
@[simp] theorem endPulses_pressed (s : State) : (endPulses s).pressed = s.pressed := rfl
@[simp] theorem endPulses_host (s : State) : (endPulses s).host = s.host := rfl
@[simp] theorem endPulses_program (s : State) : (endPulses s).program = s.program := rfl
@[simp] theorem endPulses_moves (s : State) : (endPulses s).moves = s.moves := rfl
@[simp] theorem endPulses_draws (s : State) : (endPulses s).draws = s.draws := rfl

/-! ## `completeFramer` -/

@[simp] theorem completeFramer_clk (s : State) : (completeFramer s).clk = s.clk := rfl
@[simp] theorem completeFramer_dio (s : State) : (completeFramer s).dio = s.dio := rfl
@[simp] theorem completeFramer_row (s : State) : (completeFramer s).row = s.row := rfl
@[simp] theorem completeFramer_fcmd (s : State) : (completeFramer s).fcmd = s.fcmd := rfl
@[simp] theorem completeFramer_shr (s : State) : (completeFramer s).shr = s.shr := rfl
@[simp] theorem completeFramer_df (s : State) : (completeFramer s).df = s.df := rfl
@[simp] theorem completeFramer_fq (s : State) : (completeFramer s).fq = s.fq := rfl
@[simp] theorem completeFramer_fBusy (s : State) : (completeFramer s).fBusy = false := rfl
@[simp] theorem completeFramer_fDone (s : State) : (completeFramer s).fDone = true := rfl
@[simp] theorem completeFramer_fNoted (s : State) : (completeFramer s).fNoted = true := rfl
@[simp] theorem completeFramer_ctr (s : State) : (completeFramer s).ctr = s.ctr := rfl
@[simp] theorem completeFramer_krow (s : State) : (completeFramer s).krow = s.krow := rfl
@[simp] theorem completeFramer_kcols (s : State) : (completeFramer s).kcols = s.kcols := rfl
@[simp] theorem completeFramer_kst (s : State) : (completeFramer s).kst = s.kst := rfl
@[simp] theorem completeFramer_kBusy (s : State) : (completeFramer s).kBusy = s.kBusy := rfl
@[simp] theorem completeFramer_kDone (s : State) : (completeFramer s).kDone = s.kDone := rfl
@[simp] theorem completeFramer_kNoted (s : State) : (completeFramer s).kNoted = s.kNoted := rfl
@[simp] theorem completeFramer_key (s : State) : (completeFramer s).key = s.key := rfl
@[simp] theorem completeFramer_runState (s : State) : (completeFramer s).runState = s.runState := rfl
@[simp] theorem completeFramer_minutes (s : State) : (completeFramer s).minutes = s.minutes := rfl
@[simp] theorem completeFramer_seconds (s : State) : (completeFramer s).seconds = s.seconds := rfl
@[simp] theorem completeFramer_colonPhase (s : State) : (completeFramer s).colonPhase = s.colonPhase := rfl
@[simp] theorem completeFramer_fg (s : State) : (completeFramer s).fg = s.fg := rfl
@[simp] theorem completeFramer_handler (s : State) : (completeFramer s).handler = s.handler := rfl
@[simp] theorem completeFramer_tickEnabled (s : State) : (completeFramer s).tickEnabled = s.tickEnabled := rfl
@[simp] theorem completeFramer_periphReady (s : State) : (completeFramer s).periphReady = s.periphReady := rfl
@[simp] theorem completeFramer_trace (s : State) : (completeFramer s).trace = s.trace := rfl
@[simp] theorem completeFramer_mon (s : State) : (completeFramer s).mon = s.mon := rfl
@[simp] theorem completeFramer_sink (s : State) : (completeFramer s).sink = s.sink := rfl
@[simp] theorem completeFramer_dm (s : State) : (completeFramer s).dm = s.dm := rfl
@[simp] theorem completeFramer_pressed (s : State) : (completeFramer s).pressed = s.pressed := rfl
@[simp] theorem completeFramer_host (s : State) : (completeFramer s).host = s.host := rfl
@[simp] theorem completeFramer_program (s : State) : (completeFramer s).program = s.program := rfl
@[simp] theorem completeFramer_moves (s : State) : (completeFramer s).moves = s.moves := rfl
@[simp] theorem completeFramer_draws (s : State) : (completeFramer s).draws = s.draws := rfl

/-! ## `returnKey` -/

@[simp] theorem returnKey_clk (k : Byte) (s : State) : (returnKey k s).clk = s.clk := rfl
@[simp] theorem returnKey_dio (k : Byte) (s : State) : (returnKey k s).dio = s.dio := rfl
@[simp] theorem returnKey_row (k : Byte) (s : State) : (returnKey k s).row = s.row := rfl
@[simp] theorem returnKey_fcmd (k : Byte) (s : State) : (returnKey k s).fcmd = s.fcmd := rfl
@[simp] theorem returnKey_shr (k : Byte) (s : State) : (returnKey k s).shr = s.shr := rfl
@[simp] theorem returnKey_df (k : Byte) (s : State) : (returnKey k s).df = s.df := rfl
@[simp] theorem returnKey_fq (k : Byte) (s : State) : (returnKey k s).fq = s.fq := rfl
@[simp] theorem returnKey_fBusy (k : Byte) (s : State) : (returnKey k s).fBusy = s.fBusy := rfl
@[simp] theorem returnKey_fDone (k : Byte) (s : State) : (returnKey k s).fDone = s.fDone := rfl
@[simp] theorem returnKey_fNoted (k : Byte) (s : State) : (returnKey k s).fNoted = s.fNoted := rfl
@[simp] theorem returnKey_ctr (k : Byte) (s : State) : (returnKey k s).ctr = s.ctr := rfl
@[simp] theorem returnKey_krow (k : Byte) (s : State) : (returnKey k s).krow = s.krow := rfl
@[simp] theorem returnKey_kcols (k : Byte) (s : State) : (returnKey k s).kcols = s.kcols := rfl
@[simp] theorem returnKey_kst (k : Byte) (s : State) : (returnKey k s).kst = .idle := rfl
@[simp] theorem returnKey_kBusy (k : Byte) (s : State) : (returnKey k s).kBusy = false := rfl
@[simp] theorem returnKey_kDone (k : Byte) (s : State) : (returnKey k s).kDone = true := rfl
@[simp] theorem returnKey_kNoted (k : Byte) (s : State) : (returnKey k s).kNoted = true := rfl
@[simp] theorem returnKey_key (k : Byte) (s : State) : (returnKey k s).key = k := rfl
@[simp] theorem returnKey_runState (k : Byte) (s : State) : (returnKey k s).runState = s.runState := rfl
@[simp] theorem returnKey_minutes (k : Byte) (s : State) : (returnKey k s).minutes = s.minutes := rfl
@[simp] theorem returnKey_seconds (k : Byte) (s : State) : (returnKey k s).seconds = s.seconds := rfl
@[simp] theorem returnKey_colonPhase (k : Byte) (s : State) : (returnKey k s).colonPhase = s.colonPhase := rfl
@[simp] theorem returnKey_fg (k : Byte) (s : State) : (returnKey k s).fg = s.fg := rfl
@[simp] theorem returnKey_handler (k : Byte) (s : State) : (returnKey k s).handler = s.handler := rfl
@[simp] theorem returnKey_tickEnabled (k : Byte) (s : State) : (returnKey k s).tickEnabled = s.tickEnabled := rfl
@[simp] theorem returnKey_periphReady (k : Byte) (s : State) : (returnKey k s).periphReady = s.periphReady := rfl
@[simp] theorem returnKey_trace (k : Byte) (s : State) : (returnKey k s).trace = s.trace ++ [.ret k] := rfl
@[simp] theorem returnKey_mon (k : Byte) (s : State) : (returnKey k s).mon = s.mon := rfl
@[simp] theorem returnKey_sink (k : Byte) (s : State) : (returnKey k s).sink = s.sink := rfl
@[simp] theorem returnKey_dm (k : Byte) (s : State) : (returnKey k s).dm = s.dm := rfl
@[simp] theorem returnKey_pressed (k : Byte) (s : State) : (returnKey k s).pressed = s.pressed := rfl
@[simp] theorem returnKey_host (k : Byte) (s : State) : (returnKey k s).host = s.host := rfl
@[simp] theorem returnKey_program (k : Byte) (s : State) : (returnKey k s).program = s.program := rfl
@[simp] theorem returnKey_moves (k : Byte) (s : State) : (returnKey k s).moves = s.moves := rfl
@[simp] theorem returnKey_draws (k : Byte) (s : State) : (returnKey k s).draws = s.draws := rfl

/-! ## `loadFramer` -/

@[simp] theorem loadFramer_clk (w : Word) (es : List FrEvent) (df : Four Byte) (s : State) : (loadFramer w es df s).clk = s.clk := rfl
@[simp] theorem loadFramer_dio (w : Word) (es : List FrEvent) (df : Four Byte) (s : State) : (loadFramer w es df s).dio = s.dio := rfl
@[simp] theorem loadFramer_row (w : Word) (es : List FrEvent) (df : Four Byte) (s : State) : (loadFramer w es df s).row = s.row := rfl
@[simp] theorem loadFramer_fcmd (w : Word) (es : List FrEvent) (df : Four Byte) (s : State) : (loadFramer w es df s).fcmd = w := rfl
@[simp] theorem loadFramer_shr (w : Word) (es : List FrEvent) (df : Four Byte) (s : State) : (loadFramer w es df s).shr = (counterStart w df s.shr).2 := rfl
@[simp] theorem loadFramer_df (w : Word) (es : List FrEvent) (df : Four Byte) (s : State) : (loadFramer w es df s).df = df := rfl
@[simp] theorem loadFramer_fq (w : Word) (es : List FrEvent) (df : Four Byte) (s : State) : (loadFramer w es df s).fq = es := rfl
@[simp] theorem loadFramer_fBusy (w : Word) (es : List FrEvent) (df : Four Byte) (s : State) : (loadFramer w es df s).fBusy = true := rfl
@[simp] theorem loadFramer_fDone (w : Word) (es : List FrEvent) (df : Four Byte) (s : State) : (loadFramer w es df s).fDone = s.fDone := rfl
@[simp] theorem loadFramer_fNoted (w : Word) (es : List FrEvent) (df : Four Byte) (s : State) : (loadFramer w es df s).fNoted = false := rfl
@[simp] theorem loadFramer_ctr (w : Word) (es : List FrEvent) (df : Four Byte) (s : State) : (loadFramer w es df s).ctr = (counterStart w df s.shr).1 := rfl
@[simp] theorem loadFramer_krow (w : Word) (es : List FrEvent) (df : Four Byte) (s : State) : (loadFramer w es df s).krow = s.krow := rfl
@[simp] theorem loadFramer_kcols (w : Word) (es : List FrEvent) (df : Four Byte) (s : State) : (loadFramer w es df s).kcols = s.kcols := rfl
@[simp] theorem loadFramer_kst (w : Word) (es : List FrEvent) (df : Four Byte) (s : State) : (loadFramer w es df s).kst = s.kst := rfl
@[simp] theorem loadFramer_kBusy (w : Word) (es : List FrEvent) (df : Four Byte) (s : State) : (loadFramer w es df s).kBusy = s.kBusy := rfl
@[simp] theorem loadFramer_kDone (w : Word) (es : List FrEvent) (df : Four Byte) (s : State) : (loadFramer w es df s).kDone = s.kDone := rfl
@[simp] theorem loadFramer_kNoted (w : Word) (es : List FrEvent) (df : Four Byte) (s : State) : (loadFramer w es df s).kNoted = s.kNoted := rfl
@[simp] theorem loadFramer_key (w : Word) (es : List FrEvent) (df : Four Byte) (s : State) : (loadFramer w es df s).key = s.key := rfl
@[simp] theorem loadFramer_runState (w : Word) (es : List FrEvent) (df : Four Byte) (s : State) : (loadFramer w es df s).runState = s.runState := rfl
@[simp] theorem loadFramer_minutes (w : Word) (es : List FrEvent) (df : Four Byte) (s : State) : (loadFramer w es df s).minutes = s.minutes := rfl
@[simp] theorem loadFramer_seconds (w : Word) (es : List FrEvent) (df : Four Byte) (s : State) : (loadFramer w es df s).seconds = s.seconds := rfl
@[simp] theorem loadFramer_colonPhase (w : Word) (es : List FrEvent) (df : Four Byte) (s : State) : (loadFramer w es df s).colonPhase = s.colonPhase := rfl
@[simp] theorem loadFramer_fg (w : Word) (es : List FrEvent) (df : Four Byte) (s : State) : (loadFramer w es df s).fg = s.fg := rfl
@[simp] theorem loadFramer_handler (w : Word) (es : List FrEvent) (df : Four Byte) (s : State) : (loadFramer w es df s).handler = s.handler := rfl
@[simp] theorem loadFramer_tickEnabled (w : Word) (es : List FrEvent) (df : Four Byte) (s : State) : (loadFramer w es df s).tickEnabled = s.tickEnabled := rfl
@[simp] theorem loadFramer_periphReady (w : Word) (es : List FrEvent) (df : Four Byte) (s : State) : (loadFramer w es df s).periphReady = s.periphReady := rfl
@[simp] theorem loadFramer_trace (w : Word) (es : List FrEvent) (df : Four Byte) (s : State) : (loadFramer w es df s).trace = s.trace ++ [.issue w] := rfl
@[simp] theorem loadFramer_mon (w : Word) (es : List FrEvent) (df : Four Byte) (s : State) : (loadFramer w es df s).mon = s.mon := rfl
@[simp] theorem loadFramer_sink (w : Word) (es : List FrEvent) (df : Four Byte) (s : State) : (loadFramer w es df s).sink = s.sink := rfl
@[simp] theorem loadFramer_dm (w : Word) (es : List FrEvent) (df : Four Byte) (s : State) : (loadFramer w es df s).dm = s.dm := rfl
@[simp] theorem loadFramer_pressed (w : Word) (es : List FrEvent) (df : Four Byte) (s : State) : (loadFramer w es df s).pressed = s.pressed := rfl
@[simp] theorem loadFramer_host (w : Word) (es : List FrEvent) (df : Four Byte) (s : State) : (loadFramer w es df s).host = s.host := rfl
@[simp] theorem loadFramer_program (w : Word) (es : List FrEvent) (df : Four Byte) (s : State) : (loadFramer w es df s).program = s.program := rfl
@[simp] theorem loadFramer_moves (w : Word) (es : List FrEvent) (df : Four Byte) (s : State) : (loadFramer w es df s).moves = s.moves := rfl
@[simp] theorem loadFramer_draws (w : Word) (es : List FrEvent) (df : Four Byte) (s : State) : (loadFramer w es df s).draws = s.draws := rfl

/-! ## `loadScanner` -/

@[simp] theorem loadScanner_clk (s : State) : (loadScanner s).clk = s.clk := rfl
@[simp] theorem loadScanner_dio (s : State) : (loadScanner s).dio = s.dio := rfl
@[simp] theorem loadScanner_row (s : State) : (loadScanner s).row = s.row := rfl
@[simp] theorem loadScanner_fcmd (s : State) : (loadScanner s).fcmd = s.fcmd := rfl
@[simp] theorem loadScanner_shr (s : State) : (loadScanner s).shr = s.shr := rfl
@[simp] theorem loadScanner_df (s : State) : (loadScanner s).df = s.df := rfl
@[simp] theorem loadScanner_fq (s : State) : (loadScanner s).fq = s.fq := rfl
@[simp] theorem loadScanner_fBusy (s : State) : (loadScanner s).fBusy = s.fBusy := rfl
@[simp] theorem loadScanner_fDone (s : State) : (loadScanner s).fDone = s.fDone := rfl
@[simp] theorem loadScanner_fNoted (s : State) : (loadScanner s).fNoted = s.fNoted := rfl
@[simp] theorem loadScanner_ctr (s : State) : (loadScanner s).ctr = s.ctr := rfl
@[simp] theorem loadScanner_krow (s : State) : (loadScanner s).krow = 0 := rfl
@[simp] theorem loadScanner_kcols (s : State) : (loadScanner s).kcols = s.kcols := rfl
@[simp] theorem loadScanner_kst (s : State) : (loadScanner s).kst = .drive := rfl
@[simp] theorem loadScanner_kBusy (s : State) : (loadScanner s).kBusy = true := rfl
@[simp] theorem loadScanner_kDone (s : State) : (loadScanner s).kDone = s.kDone := rfl
@[simp] theorem loadScanner_kNoted (s : State) : (loadScanner s).kNoted = false := rfl
@[simp] theorem loadScanner_key (s : State) : (loadScanner s).key = s.key := rfl
@[simp] theorem loadScanner_runState (s : State) : (loadScanner s).runState = s.runState := rfl
@[simp] theorem loadScanner_minutes (s : State) : (loadScanner s).minutes = s.minutes := rfl
@[simp] theorem loadScanner_seconds (s : State) : (loadScanner s).seconds = s.seconds := rfl
@[simp] theorem loadScanner_colonPhase (s : State) : (loadScanner s).colonPhase = s.colonPhase := rfl
@[simp] theorem loadScanner_fg (s : State) : (loadScanner s).fg = s.fg := rfl
@[simp] theorem loadScanner_handler (s : State) : (loadScanner s).handler = s.handler := rfl
@[simp] theorem loadScanner_tickEnabled (s : State) : (loadScanner s).tickEnabled = s.tickEnabled := rfl
@[simp] theorem loadScanner_periphReady (s : State) : (loadScanner s).periphReady = s.periphReady := rfl
@[simp] theorem loadScanner_trace (s : State) : (loadScanner s).trace = s.trace ++ [.issue scanWord] := rfl
@[simp] theorem loadScanner_mon (s : State) : (loadScanner s).mon = s.mon := rfl
@[simp] theorem loadScanner_sink (s : State) : (loadScanner s).sink = s.sink := rfl
@[simp] theorem loadScanner_dm (s : State) : (loadScanner s).dm = s.dm := rfl
@[simp] theorem loadScanner_pressed (s : State) : (loadScanner s).pressed = s.pressed := rfl
@[simp] theorem loadScanner_host (s : State) : (loadScanner s).host = s.host := rfl
@[simp] theorem loadScanner_program (s : State) : (loadScanner s).program = s.program := rfl
@[simp] theorem loadScanner_moves (s : State) : (loadScanner s).moves = s.moves := rfl
@[simp] theorem loadScanner_draws (s : State) : (loadScanner s).draws = s.draws := rfl

/-! ## `sinkRefuse` -/

@[simp] theorem sinkRefuse_clk (s : State) : (sinkRefuse s).clk = s.clk := rfl
@[simp] theorem sinkRefuse_dio (s : State) : (sinkRefuse s).dio = s.dio := rfl
@[simp] theorem sinkRefuse_row (s : State) : (sinkRefuse s).row = s.row := rfl
@[simp] theorem sinkRefuse_fcmd (s : State) : (sinkRefuse s).fcmd = s.fcmd := rfl
@[simp] theorem sinkRefuse_shr (s : State) : (sinkRefuse s).shr = s.shr := rfl
@[simp] theorem sinkRefuse_df (s : State) : (sinkRefuse s).df = s.df := rfl
@[simp] theorem sinkRefuse_fq (s : State) : (sinkRefuse s).fq = s.fq := rfl
@[simp] theorem sinkRefuse_fBusy (s : State) : (sinkRefuse s).fBusy = s.fBusy := rfl
@[simp] theorem sinkRefuse_fDone (s : State) : (sinkRefuse s).fDone = s.fDone := rfl
@[simp] theorem sinkRefuse_fNoted (s : State) : (sinkRefuse s).fNoted = s.fNoted := rfl
@[simp] theorem sinkRefuse_ctr (s : State) : (sinkRefuse s).ctr = s.ctr := rfl
@[simp] theorem sinkRefuse_krow (s : State) : (sinkRefuse s).krow = s.krow := rfl
@[simp] theorem sinkRefuse_kcols (s : State) : (sinkRefuse s).kcols = s.kcols := rfl
@[simp] theorem sinkRefuse_kst (s : State) : (sinkRefuse s).kst = s.kst := rfl
@[simp] theorem sinkRefuse_kBusy (s : State) : (sinkRefuse s).kBusy = s.kBusy := rfl
@[simp] theorem sinkRefuse_kDone (s : State) : (sinkRefuse s).kDone = s.kDone := rfl
@[simp] theorem sinkRefuse_kNoted (s : State) : (sinkRefuse s).kNoted = s.kNoted := rfl
@[simp] theorem sinkRefuse_key (s : State) : (sinkRefuse s).key = s.key := rfl
@[simp] theorem sinkRefuse_runState (s : State) : (sinkRefuse s).runState = s.runState := rfl
@[simp] theorem sinkRefuse_minutes (s : State) : (sinkRefuse s).minutes = s.minutes := rfl
@[simp] theorem sinkRefuse_seconds (s : State) : (sinkRefuse s).seconds = s.seconds := rfl
@[simp] theorem sinkRefuse_colonPhase (s : State) : (sinkRefuse s).colonPhase = s.colonPhase := rfl
@[simp] theorem sinkRefuse_fg (s : State) : (sinkRefuse s).fg = s.fg := rfl
@[simp] theorem sinkRefuse_handler (s : State) : (sinkRefuse s).handler = s.handler := rfl
@[simp] theorem sinkRefuse_tickEnabled (s : State) : (sinkRefuse s).tickEnabled = s.tickEnabled := rfl
@[simp] theorem sinkRefuse_periphReady (s : State) : (sinkRefuse s).periphReady = s.periphReady := rfl
@[simp] theorem sinkRefuse_trace (s : State) : (sinkRefuse s).trace = s.trace := rfl
@[simp] theorem sinkRefuse_mon (s : State) : (sinkRefuse s).mon = s.mon := rfl
@[simp] theorem sinkRefuse_sink (s : State) : (sinkRefuse s).sink = { s.sink with refused := true } := rfl
@[simp] theorem sinkRefuse_dm (s : State) : (sinkRefuse s).dm = s.dm := rfl
@[simp] theorem sinkRefuse_pressed (s : State) : (sinkRefuse s).pressed = s.pressed := rfl
@[simp] theorem sinkRefuse_host (s : State) : (sinkRefuse s).host = s.host := rfl
@[simp] theorem sinkRefuse_program (s : State) : (sinkRefuse s).program = s.program := rfl
@[simp] theorem sinkRefuse_moves (s : State) : (sinkRefuse s).moves = s.moves := rfl
@[simp] theorem sinkRefuse_draws (s : State) : (sinkRefuse s).draws = s.draws := rfl

/-! ## `endTick` -/

@[simp] theorem endTick_clk (s : State) : (endTick s).clk = s.clk := rfl
@[simp] theorem endTick_dio (s : State) : (endTick s).dio = s.dio := rfl
@[simp] theorem endTick_row (s : State) : (endTick s).row = s.row := rfl
@[simp] theorem endTick_fcmd (s : State) : (endTick s).fcmd = s.fcmd := rfl
@[simp] theorem endTick_shr (s : State) : (endTick s).shr = s.shr := rfl
@[simp] theorem endTick_df (s : State) : (endTick s).df = s.df := rfl
@[simp] theorem endTick_fq (s : State) : (endTick s).fq = s.fq := rfl
@[simp] theorem endTick_fBusy (s : State) : (endTick s).fBusy = s.fBusy := rfl
@[simp] theorem endTick_fDone (s : State) : (endTick s).fDone = s.fDone := rfl
@[simp] theorem endTick_fNoted (s : State) : (endTick s).fNoted = s.fNoted := rfl
@[simp] theorem endTick_ctr (s : State) : (endTick s).ctr = s.ctr := rfl
@[simp] theorem endTick_krow (s : State) : (endTick s).krow = s.krow := rfl
@[simp] theorem endTick_kcols (s : State) : (endTick s).kcols = s.kcols := rfl
@[simp] theorem endTick_kst (s : State) : (endTick s).kst = s.kst := rfl
@[simp] theorem endTick_kBusy (s : State) : (endTick s).kBusy = s.kBusy := rfl
@[simp] theorem endTick_kDone (s : State) : (endTick s).kDone = s.kDone := rfl
@[simp] theorem endTick_kNoted (s : State) : (endTick s).kNoted = s.kNoted := rfl
@[simp] theorem endTick_key (s : State) : (endTick s).key = s.key := rfl
@[simp] theorem endTick_runState (s : State) : (endTick s).runState = s.runState := rfl
@[simp] theorem endTick_minutes (s : State) : (endTick s).minutes = s.minutes := rfl
@[simp] theorem endTick_seconds (s : State) : (endTick s).seconds = s.seconds := rfl
@[simp] theorem endTick_colonPhase (s : State) : (endTick s).colonPhase = s.colonPhase := rfl
@[simp] theorem endTick_fg (s : State) : (endTick s).fg = s.fg := rfl
@[simp] theorem endTick_handler (s : State) : (endTick s).handler = .idle := rfl
@[simp] theorem endTick_tickEnabled (s : State) : (endTick s).tickEnabled = s.tickEnabled := rfl
@[simp] theorem endTick_periphReady (s : State) : (endTick s).periphReady = s.periphReady := rfl
@[simp] theorem endTick_trace (s : State) : (endTick s).trace = s.trace := rfl
@[simp] theorem endTick_mon (s : State) : (endTick s).mon = s.mon := rfl
@[simp] theorem endTick_sink (s : State) : (endTick s).sink = s.sink := rfl
@[simp] theorem endTick_dm (s : State) : (endTick s).dm = s.dm := rfl
@[simp] theorem endTick_pressed (s : State) : (endTick s).pressed = s.pressed := rfl
@[simp] theorem endTick_host (s : State) : (endTick s).host = s.host := rfl
@[simp] theorem endTick_program (s : State) : (endTick s).program = s.program := rfl
@[simp] theorem endTick_moves (s : State) : (endTick s).moves = s.moves := rfl
@[simp] theorem endTick_draws (s : State) : (endTick s).draws = s.draws := rfl

/-! ## `initHostVars` -/

@[simp] theorem initHostVars_clk (s : State) : (initHostVars s).clk = s.clk := rfl
@[simp] theorem initHostVars_dio (s : State) : (initHostVars s).dio = s.dio := rfl
@[simp] theorem initHostVars_row (s : State) : (initHostVars s).row = s.row := rfl
@[simp] theorem initHostVars_fcmd (s : State) : (initHostVars s).fcmd = s.fcmd := rfl
@[simp] theorem initHostVars_shr (s : State) : (initHostVars s).shr = s.shr := rfl
@[simp] theorem initHostVars_df (s : State) : (initHostVars s).df = s.df := rfl
@[simp] theorem initHostVars_fq (s : State) : (initHostVars s).fq = s.fq := rfl
@[simp] theorem initHostVars_fBusy (s : State) : (initHostVars s).fBusy = s.fBusy := rfl
@[simp] theorem initHostVars_fDone (s : State) : (initHostVars s).fDone = s.fDone := rfl
@[simp] theorem initHostVars_fNoted (s : State) : (initHostVars s).fNoted = s.fNoted := rfl
@[simp] theorem initHostVars_ctr (s : State) : (initHostVars s).ctr = s.ctr := rfl
@[simp] theorem initHostVars_krow (s : State) : (initHostVars s).krow = s.krow := rfl
@[simp] theorem initHostVars_kcols (s : State) : (initHostVars s).kcols = s.kcols := rfl
@[simp] theorem initHostVars_kst (s : State) : (initHostVars s).kst = s.kst := rfl
@[simp] theorem initHostVars_kBusy (s : State) : (initHostVars s).kBusy = s.kBusy := rfl
@[simp] theorem initHostVars_kDone (s : State) : (initHostVars s).kDone = s.kDone := rfl
@[simp] theorem initHostVars_kNoted (s : State) : (initHostVars s).kNoted = s.kNoted := rfl
@[simp] theorem initHostVars_key (s : State) : (initHostVars s).key = s.key := rfl
@[simp] theorem initHostVars_runState (s : State) : (initHostVars s).runState = .stopped := rfl
@[simp] theorem initHostVars_minutes (s : State) : (initHostVars s).minutes = 0 := rfl
@[simp] theorem initHostVars_seconds (s : State) : (initHostVars s).seconds = 0 := rfl
@[simp] theorem initHostVars_colonPhase (s : State) : (initHostVars s).colonPhase = Config.colonInit := rfl
@[simp] theorem initHostVars_fg (s : State) : (initHostVars s).fg = s.fg := rfl
@[simp] theorem initHostVars_handler (s : State) : (initHostVars s).handler = s.handler := rfl
@[simp] theorem initHostVars_tickEnabled (s : State) : (initHostVars s).tickEnabled = s.tickEnabled := rfl
@[simp] theorem initHostVars_periphReady (s : State) : (initHostVars s).periphReady = s.periphReady := rfl
@[simp] theorem initHostVars_trace (s : State) : (initHostVars s).trace = s.trace := rfl
@[simp] theorem initHostVars_mon (s : State) : (initHostVars s).mon = s.mon := rfl
@[simp] theorem initHostVars_sink (s : State) : (initHostVars s).sink = s.sink := rfl
@[simp] theorem initHostVars_dm (s : State) : (initHostVars s).dm = s.dm := rfl
@[simp] theorem initHostVars_pressed (s : State) : (initHostVars s).pressed = s.pressed := rfl
@[simp] theorem initHostVars_host (s : State) : (initHostVars s).host = s.host := rfl
@[simp] theorem initHostVars_program (s : State) : (initHostVars s).program = s.program := rfl
@[simp] theorem initHostVars_moves (s : State) : (initHostVars s).moves = s.moves := rfl
@[simp] theorem initHostVars_draws (s : State) : (initHostVars s).draws = s.draws := rfl

/-! ## `resetMachine` -/

@[simp] theorem resetMachine_clk (s : State) : (resetMachine s).clk = State.reset.clk := rfl
@[simp] theorem resetMachine_dio (s : State) : (resetMachine s).dio = State.reset.dio := rfl
@[simp] theorem resetMachine_row (s : State) : (resetMachine s).row = State.reset.row := rfl
@[simp] theorem resetMachine_fcmd (s : State) : (resetMachine s).fcmd = State.reset.fcmd := rfl
@[simp] theorem resetMachine_shr (s : State) : (resetMachine s).shr = State.reset.shr := rfl
@[simp] theorem resetMachine_df (s : State) : (resetMachine s).df = State.reset.df := rfl
@[simp] theorem resetMachine_fq (s : State) : (resetMachine s).fq = State.reset.fq := rfl
@[simp] theorem resetMachine_fBusy (s : State) : (resetMachine s).fBusy = State.reset.fBusy := rfl
@[simp] theorem resetMachine_fDone (s : State) : (resetMachine s).fDone = State.reset.fDone := rfl
@[simp] theorem resetMachine_fNoted (s : State) : (resetMachine s).fNoted = State.reset.fNoted := rfl
@[simp] theorem resetMachine_ctr (s : State) : (resetMachine s).ctr = State.reset.ctr := rfl
@[simp] theorem resetMachine_krow (s : State) : (resetMachine s).krow = State.reset.krow := rfl
@[simp] theorem resetMachine_kcols (s : State) : (resetMachine s).kcols = State.reset.kcols := rfl
@[simp] theorem resetMachine_kst (s : State) : (resetMachine s).kst = State.reset.kst := rfl
@[simp] theorem resetMachine_kBusy (s : State) : (resetMachine s).kBusy = State.reset.kBusy := rfl
@[simp] theorem resetMachine_kDone (s : State) : (resetMachine s).kDone = State.reset.kDone := rfl
@[simp] theorem resetMachine_kNoted (s : State) : (resetMachine s).kNoted = State.reset.kNoted := rfl
@[simp] theorem resetMachine_key (s : State) : (resetMachine s).key = State.reset.key := rfl
@[simp] theorem resetMachine_runState (s : State) : (resetMachine s).runState = State.reset.runState := rfl
@[simp] theorem resetMachine_minutes (s : State) : (resetMachine s).minutes = State.reset.minutes := rfl
@[simp] theorem resetMachine_seconds (s : State) : (resetMachine s).seconds = State.reset.seconds := rfl
@[simp] theorem resetMachine_colonPhase (s : State) : (resetMachine s).colonPhase = State.reset.colonPhase := rfl
@[simp] theorem resetMachine_fg (s : State) : (resetMachine s).fg = State.reset.fg := rfl
@[simp] theorem resetMachine_handler (s : State) : (resetMachine s).handler = State.reset.handler := rfl
@[simp] theorem resetMachine_tickEnabled (s : State) : (resetMachine s).tickEnabled = State.reset.tickEnabled := rfl
@[simp] theorem resetMachine_periphReady (s : State) : (resetMachine s).periphReady = State.reset.periphReady := rfl
@[simp] theorem resetMachine_trace (s : State) : (resetMachine s).trace = State.reset.trace := rfl
@[simp] theorem resetMachine_mon (s : State) : (resetMachine s).mon = if s.mon.inframe || s.fBusy then markMalformed s.mon else s.mon := rfl
@[simp] theorem resetMachine_sink (s : State) : (resetMachine s).sink = s.sink := rfl
@[simp] theorem resetMachine_dm (s : State) : (resetMachine s).dm = s.dm := rfl
@[simp] theorem resetMachine_pressed (s : State) : (resetMachine s).pressed = s.pressed := rfl
@[simp] theorem resetMachine_host (s : State) : (resetMachine s).host = s.host := rfl
@[simp] theorem resetMachine_program (s : State) : (resetMachine s).program = s.program := rfl
@[simp] theorem resetMachine_moves (s : State) : (resetMachine s).moves = s.moves := rfl
@[simp] theorem resetMachine_draws (s : State) : (resetMachine s).draws = s.draws := rfl

/-! ## `takeMove` -/

@[simp] theorem takeMove_clk (s : State) : (takeMove s).clk = s.clk := by unfold takeMove; split <;> rfl
@[simp] theorem takeMove_dio (s : State) : (takeMove s).dio = s.dio := by unfold takeMove; split <;> rfl
@[simp] theorem takeMove_row (s : State) : (takeMove s).row = s.row := by unfold takeMove; split <;> rfl
@[simp] theorem takeMove_fcmd (s : State) : (takeMove s).fcmd = s.fcmd := by unfold takeMove; split <;> rfl
@[simp] theorem takeMove_shr (s : State) : (takeMove s).shr = s.shr := by unfold takeMove; split <;> rfl
@[simp] theorem takeMove_df (s : State) : (takeMove s).df = s.df := by unfold takeMove; split <;> rfl
@[simp] theorem takeMove_fq (s : State) : (takeMove s).fq = s.fq := by unfold takeMove; split <;> rfl
@[simp] theorem takeMove_fBusy (s : State) : (takeMove s).fBusy = s.fBusy := by unfold takeMove; split <;> rfl
@[simp] theorem takeMove_fDone (s : State) : (takeMove s).fDone = false := by unfold takeMove; split <;> rfl
@[simp] theorem takeMove_fNoted (s : State) : (takeMove s).fNoted = s.fNoted := by unfold takeMove; split <;> rfl
@[simp] theorem takeMove_ctr (s : State) : (takeMove s).ctr = s.ctr := by unfold takeMove; split <;> rfl
@[simp] theorem takeMove_krow (s : State) : (takeMove s).krow = s.krow := by unfold takeMove; split <;> rfl
@[simp] theorem takeMove_kcols (s : State) : (takeMove s).kcols = s.kcols := by unfold takeMove; split <;> rfl
@[simp] theorem takeMove_kst (s : State) : (takeMove s).kst = s.kst := by unfold takeMove; split <;> rfl
@[simp] theorem takeMove_kBusy (s : State) : (takeMove s).kBusy = s.kBusy := by unfold takeMove; split <;> rfl
@[simp] theorem takeMove_kDone (s : State) : (takeMove s).kDone = false := by unfold takeMove; split <;> rfl
@[simp] theorem takeMove_kNoted (s : State) : (takeMove s).kNoted = s.kNoted := by unfold takeMove; split <;> rfl
@[simp] theorem takeMove_key (s : State) : (takeMove s).key = s.key := by unfold takeMove; split <;> rfl
@[simp] theorem takeMove_runState (s : State) : (takeMove s).runState = s.runState := by unfold takeMove; split <;> rfl
@[simp] theorem takeMove_minutes (s : State) : (takeMove s).minutes = s.minutes := by unfold takeMove; split <;> rfl
@[simp] theorem takeMove_seconds (s : State) : (takeMove s).seconds = s.seconds := by unfold takeMove; split <;> rfl
@[simp] theorem takeMove_colonPhase (s : State) : (takeMove s).colonPhase = s.colonPhase := by unfold takeMove; split <;> rfl
@[simp] theorem takeMove_fg (s : State) : (takeMove s).fg = s.fg := by unfold takeMove; split <;> rfl
@[simp] theorem takeMove_handler (s : State) : (takeMove s).handler = s.handler := by unfold takeMove; split <;> rfl
@[simp] theorem takeMove_tickEnabled (s : State) : (takeMove s).tickEnabled = s.tickEnabled := by unfold takeMove; split <;> rfl
@[simp] theorem takeMove_periphReady (s : State) : (takeMove s).periphReady = s.periphReady := by unfold takeMove; split <;> rfl
@[simp] theorem takeMove_trace (s : State) : (takeMove s).trace = s.trace := by unfold takeMove; split <;> rfl
@[simp] theorem takeMove_mon (s : State) : (takeMove s).mon = s.mon := by unfold takeMove; split <;> rfl
@[simp] theorem takeMove_sink (s : State) : (takeMove s).sink = s.sink := by unfold takeMove; split <;> rfl
@[simp] theorem takeMove_dm (s : State) : (takeMove s).dm = s.dm := by unfold takeMove; split <;> rfl
@[simp] theorem takeMove_pressed (s : State) : (takeMove s).pressed = s.pressed := by unfold takeMove; split <;> rfl
@[simp] theorem takeMove_host (s : State) : (takeMove s).host = s.host := by unfold takeMove; split <;> rfl
@[simp] theorem takeMove_program (s : State) : (takeMove s).program = s.program := by unfold takeMove; split <;> rfl

theorem takeMove_of_cons {s : State} {m : Move} {ms : List Move} (h : s.moves = m :: ms) :
    takeMove s = { endPulses s with moves := ms } := by simp [takeMove, h]

theorem takeMove_of_nil {s : State} (h : s.moves = []) : takeMove s = { endPulses s with draws := s.draws + 1 } := by
  simp [takeMove, h]

theorem nextMove_of_cons {s : State} {m : Move} {ms : List Move} (h : s.moves = m :: ms) : nextMove s = m := by
  simp [nextMove, h]

/-- A state whose list of moves is given step by step. -/
@[simp] theorem nextMove_cons (s : State) (m : Move) (ms : List Move) : nextMove { s with moves := m :: ms } = m := rfl

@[simp] theorem takeMove_cons (s : State) (m : Move) (ms : List Move) :
    takeMove { s with moves := m :: ms } = { endPulses s with moves := ms } := rfl

end Sys2Proof.Machine
end

