-- ==== Sys2Proof/Laws/Ops.lean ====
section
/-! SUPPORT. For each shared operation one lemma that says everything it can do. -/

namespace Sys2Proof.Machine

/-! ## Acceptance -/

/-- A framer command is accepted, or the framer is busy and nothing changes. -/
theorem acceptFramer_cases (w : Word) (es : List FrEvent) (df : Four Byte) (s : State) :
    (s.fBusy = true ∧ acceptFramer w es df s = .next s) ∨
      (s.fBusy = false ∧ acceptFramer w es df s = .next (loadFramer w es df s)) := by
  cases h : s.fBusy <;> simp [acceptFramer, h]

/-- SCAN is accepted, or the scanner is busy and nothing changes. -/
theorem execScan_cases (s : State) :
    (s.kBusy = true ∧ execScan s = .next s) ∨ (s.kBusy = false ∧ execScan s = .next (loadScanner s)) := by
  cases h : s.kBusy <;> simp [execScan, h]

/-- Operands in the domain of RENDER have a DigitFrame. -/
theorem digits_some {m sec : BitVec 6} (c : Bool) (h : (timeInDomain m && timeInDomain sec) = true) :
    ∃ df, digits m sec c = some df := by
  have hs : ∀ n, n < 10 → ∃ b, seg n = some b := by decide
  simp only [timeInDomain, Bool.and_eq_true, decide_eq_true_eq] at h
  obtain ⟨d0, h0⟩ := hs (m.toNat / 10) (by omega)
  obtain ⟨d1, h1⟩ := hs (m.toNat % 10) (by omega)
  obtain ⟨d2, h2⟩ := hs (sec.toNat / 10) (by omega)
  obtain ⟨d3, h3⟩ := hs (sec.toNat % 10) (by omega)
  exact ⟨⟨d0, d1 ||| colonByte c, d2, d3⟩, by simp only [digits, h0, h1, h2, h3]⟩

/-- RENDER is refused outside its domain; inside it has a DigitFrame and is presented to the framer. -/
theorem execRender_cases (m sec : BitVec 6) (c : Bool) (s : State) :
    ((timeInDomain m && timeInDomain sec) = false ∧ execRender m sec c s = .refused .renderOutOfDomain) ∨
      ∃ df, (timeInDomain m && timeInDomain sec) = true ∧ digits m sec c = some df ∧
        execRender m sec c s = acceptFramer (renderWord m sec c) (expandRefresh df) df s := by
  cases h : (timeInDomain m && timeInDomain sec)
  · exact .inl ⟨rfl, by simp [execRender, h]⟩
  · obtain ⟨df, hd⟩ := digits_some c h
    exact .inr ⟨df, rfl, hd, by simp [execRender, h, hd]⟩

/-! ## Framer -/

/-- A framer event changes a line, the monitor and the sink's inbox, or nothing, and is recorded. -/
theorem performFr_cases (e : FrEvent) (s : State) :
    (∃ l v, e = .write l v ∧ performFr e s = record (.fr e) (observe (levelsAfter (levels s) e) s)) ∨
      (e = .settle ∧ performFr e s = record (.fr e) s) := by
  cases e with
  | write l v => exact .inl ⟨l, v, rfl, rfl⟩
  | settle => exact .inr ⟨rfl, rfl⟩

/-- The frame of one framer event. -/
theorem performFr_frame (e : FrEvent) (s : State) :
    outsideFramer s (performFr e s) ∧ (performFr e s).trace = s.trace ++ [.fr e] ∧
      levels (performFr e s) = levelsAfter (levels s) e ∧ (performFr e s).fcmd = s.fcmd ∧ (performFr e s).shr = s.shr ∧
      (performFr e s).df = s.df ∧ (performFr e s).ctr = s.ctr ∧ (performFr e s).fBusy = s.fBusy ∧
      pulsePart (performFr e s) = pulsePart s ∧ (performFr e s).fNoted = s.fNoted := by
  rcases performFr_cases e s with ⟨l, v, rfl, h⟩ | ⟨rfl, h⟩ <;> rw [h] <;>
    exact ⟨⟨rfl, rfl, rfl, rfl, rfl⟩, rfl, rfl, rfl, rfl, rfl, rfl, rfl, rfl, rfl⟩

theorem framerStep_nil {s : State} (h : s.fq = []) : framerStep s = s := by simp [framerStep, h]

theorem framerStep_cons {s : State} {e : FrEvent} {rest : List FrEvent} (h : s.fq = e :: rest) :
    framerStep s = framerAfter rest (performFr e s) := by simp [framerStep, h]

/-- After an event the framer goes on, or has completed its command. -/
theorem framerAfter_cases (rest : List FrEvent) (s : State) :
    (rest ≠ [] ∧ framerAfter rest s =
      { s with
        fq := rest
        ctr := (counterAdvance s.fcmd s.df s.ctr s.shr).1
        shr := (counterAdvance s.fcmd s.df s.ctr s.shr).2 }) ∨
      (rest = [] ∧ framerAfter rest s =
        { s with
          fq := []
          ctr := (counterAdvance s.fcmd s.df s.ctr s.shr).1
          shr := (counterAdvance s.fcmd s.df s.ctr s.shr).2
          fBusy := false
          fDone := true
          fNoted := true
          trace := s.trace ++ [.doneFramer] }) := by
  cases rest with
  | nil => exact .inr ⟨rfl, rfl⟩
  | cons e es => exact .inl ⟨List.cons_ne_nil e es, rfl⟩

/-- The framer does not look at the moves. -/
theorem framerStep_moves (s : State) (ms : List Move) :
    framerStep { s with moves := ms } = { framerStep s with moves := ms } := by
  obtain h | ⟨e, es, h⟩ : s.fq = [] ∨ ∃ e es, s.fq = e :: es := by cases s.fq <;> simp
  · rw [framerStep_nil h, framerStep_nil (s := { s with moves := ms }) h]
  · rw [framerStep_cons h, framerStep_cons (s := { s with moves := ms }) h]
    cases e <;> cases es <;> rfl

@[simp] theorem framerRun_zero (s : State) : framerRun 0 s = s := rfl

@[simp] theorem framerRun_succ (n : Nat) (s : State) : framerRun (n + 1) s = framerRun n (framerStep (endPulses s)) :=
  rfl

theorem framerRun_add (n k : Nat) (s : State) : framerRun (n + k) s = framerRun k (framerRun n s) := by
  induction n generalizing s with
  | zero => simp
  | succ n ih => rw [Nat.succ_add]; exact ih (framerStep (endPulses s))

/-! ## Scanner -/

/-- What a sample does: a hit, a miss with a row to go, or the last miss. -/
theorem afterSample_cases (v : BitVec 4) (s : State) :
    (v ≠ 0 ∧ afterSample v s = { s with kst := .releaseHit }) ∨
      (v = 0 ∧ s.krow = 3 ∧ afterSample v s = { s with kst := .releaseMiss }) ∨
      (v = 0 ∧ s.krow ≠ 3 ∧ afterSample v s = { s with krow := s.krow + 1, kst := .drive }) := by
  unfold afterSample
  by_cases hv : v = 0
  · rw [if_pos hv]
    by_cases hk : s.krow = 3
    · exact .inr (.inl ⟨hv, hk, if_pos hk⟩)
    · exact .inr (.inr ⟨hv, hk, if_neg hk⟩)
  · exact .inl ⟨hv, if_neg hv⟩

/-- A scanner step, by position. -/
theorem scannerStep_cases (v : BitVec 4) (s : State) :
    (s.kst = .idle ∧ scannerStep v s = s) ∨
      (s.kst = .drive ∧ scannerStep v s = { rowWrite (onehot s.krow) s with kst := .sample }) ∨
      (s.kst = .sample ∧ scannerStep v s = afterSample v (colSample v s)) ∨
      (s.kst = .releaseHit ∧ scannerStep v s = { rowWrite 0 s with kst := .debounce }) ∨
      (s.kst = .debounce ∧ scannerStep v s = { waitDebounce s with kst := .ret }) ∨
      (s.kst = .releaseMiss ∧ scannerStep v s = { rowWrite 0 s with kst := .ret }) ∨
      (s.kst = .ret ∧ scannerStep v s = returnKey (scanResult s.krow s.kcols) s) := by
  cases h : s.kst <;> simp [scannerStep, h]

/-- The frame of a scanner step. -/
theorem scannerStep_frame (v : BitVec 4) (s : State) : outsideScanner s (scannerStep v s) := by
  rcases scannerStep_cases v s with ⟨_, h⟩ | ⟨_, h⟩ | ⟨_, h⟩ | ⟨_, h⟩ | ⟨_, h⟩ | ⟨_, h⟩ | ⟨_, h⟩ <;> rw [h]
  case inr.inr.inl =>
    rcases afterSample_cases v (colSample v s) with ⟨_, h⟩ | ⟨_, _, h⟩ | ⟨_, _, h⟩ <;> rw [h] <;>
      exact ⟨rfl, rfl, rfl, rfl, rfl⟩
  all_goals exact ⟨rfl, rfl, rfl, rfl, rfl⟩

/-! ## Display -/

/-- Storing a data byte: at an address of the display, or the sink's refuse. -/
theorem storeData_cases (b : Byte) (s : State) :
    (s.sink.addr < displaySize ∧ storeData b s =
      { s with dm := s.dm.write s.sink.addr b, sink := { s.sink with addr := s.sink.addr + 1 } }) ∨
      (displaySize ≤ s.sink.addr ∧ storeData b s = sinkRefuse s) := by
  by_cases h : s.sink.addr < displaySize
  · exact .inl ⟨h, by simp [storeData, h]⟩
  · exact .inr ⟨not_lt.mp h, by simp [storeData, h]⟩

/-- What the sink reads next: a data byte, or a first byte, and where it has been taken from. -/
theorem fetchDisplay_some {s t : State} {c : Code} (h : fetchDisplay s = some (c, t)) :
    s.sink.refused = false ∧
      ((∃ b bs, s.sink.rest = b :: bs ∧ c = .data b ∧ t = { s with sink := { s.sink with rest := bs } }) ∨
        ∃ b bs fs, s.sink.rest = [] ∧ s.sink.inbox = (b :: bs) :: fs ∧ c = .bus b ∧
          t = { s with sink := { s.sink with rest := bs, inbox := fs } }) := by
  unfold fetchDisplay at h
  cases hr : s.sink.refused with
  | true => simp [hr] at h
  | false =>
    refine ⟨rfl, ?_⟩
    rw [hr] at h
    cases hrest : s.sink.rest with
    | cons b bs =>
      simp only [hrest, Bool.false_eq_true, if_false, Option.some.injEq, Prod.mk.injEq] at h
      exact .inl ⟨b, bs, rfl, h.1.symm, h.2.symm⟩
    | nil =>
      match hin : s.sink.inbox with
      | [] => simp [hrest, hin] at h
      | [] :: fs => simp [hrest, hin] at h
      | (b :: bs) :: fs =>
        simp only [hrest, hin, Bool.false_eq_true, if_false, Option.some.injEq, Prod.mk.injEq] at h
        exact .inr ⟨b, bs, fs, rfl, rfl, h.1.symm, h.2.symm⟩

/-! ## Host -/

/-- The tick starts the handler or has no effect. -/
theorem takeTick_cases (s : State) :
    ((s.host = .reference ∧ s.tickEnabled = true ∧ s.handler = .idle) ∧ takeTick s = { s with handler := .readRun }) ∨
      (¬(s.host = .reference ∧ s.tickEnabled = true ∧ s.handler = .idle) ∧ takeTick s = s) := by
  unfold takeTick
  split
  · exact .inl ⟨‹_›, rfl⟩
  · exact .inr ⟨‹_›, rfl⟩

@[simp] theorem foregroundRuns_iff (s : State) :
    foregroundRuns s = true ↔ s.host = .reference ∧ s.handler = .idle := by simp [foregroundRuns]

@[simp] theorem handlerRuns_iff (s : State) : handlerRuns s = true ↔ s.host = .reference := by simp [handlerRuns]

/-- A position of the foreground presents a word exactly at an `ISSUE`. -/
theorem foreground_word_iff (f : Foreground) (w : Word) : f.word = some w ↔ ∃ c, f = .issue w c := by
  cases f <;> simp [Foreground.word]

/-- A position of the handler presents a word exactly at its `ISSUE`. -/
theorem handler_word_iff (h : Handler) (w : Word) : h.word = some w ↔ h = .issue w := by
  cases h <;> simp [Handler.word]

/-- The word at the port: the outside host's next one, or that of the running thread of the reference host. -/
theorem cmdPort_some_iff (s : State) (w : Word) :
    cmdPort s = some w ↔
      (s.host = .program ∧ s.program.head? = some w) ∨
        (s.host = .reference ∧ s.handler = .idle ∧ ∃ c, s.fg = .issue w c) ∨
        (s.host = .reference ∧ s.handler = .issue w) := by
  unfold cmdPort
  cases s.host with
  | program => simp
  | reference =>
    by_cases hi : s.handler = .idle
    · simp [hi, foreground_word_iff]
    · simp [hi, handler_word_iff]

/-- What the foreground presents: an `ISSUE` or a dispatch, and only while no handler runs. -/
theorem fetchForeground_some {s t : State} {c : Code} (h : fetchForeground s = some (c, t)) :
    (s.host = .reference ∧ s.handler = .idle) ∧
      ((∃ w a, s.fg = .issue w a ∧ c = .word w ∧ t = { s with fg := .wait a }) ∨
        ∃ k, s.fg = .dispatch k ∧ c = .key k ∧ t = { s with fg := loopHead }) := by
  unfold fetchForeground at h
  by_cases hh : foregroundRuns s = true
  · refine ⟨(foregroundRuns_iff s).mp hh, ?_⟩
    rw [if_pos hh] at h
    split at h <;> simp_all
  · rw [if_neg hh] at h
    cases h

/-- What the handler presents: its `ISSUE`. -/
theorem fetchHandler_some {s t : State} {c : Code} (h : fetchHandler s = some (c, t)) :
    s.host = .reference ∧ ∃ w, s.handler = .issue w ∧ c = .word w ∧ t = { s with handler := .wait } := by
  unfold fetchHandler at h
  split at h
  · obtain ⟨w, hw, he⟩ := Option.map_eq_some_iff.mp h
    cases he
    exact ⟨(handlerRuns_iff s).mp ‹_›, w, (handler_word_iff _ w).mp hw, rfl, rfl⟩
  · cases h

/-- An outside host with a word left presents it. -/
theorem fetchCommand_of_program {s : State} {w : Word} {ws : List Word} (h : s.host = .program) (hp : s.program = w :: ws) :
    fetchCommand s = some (.word w, { s with program := ws }) := by simp only [fetchCommand, h, hp]

/-- What an outside host presents: the head of its program. -/
theorem fetchCommand_some {s t : State} {c : Code} (h : fetchCommand s = some (c, t)) :
    s.host = .program ∧ ∃ w ws, s.program = w :: ws ∧ c = .word w ∧ t = { s with program := ws } := by
  unfold fetchCommand at h
  split at h <;> simp_all

/-- A result with no defined action changes nothing. -/
@[simp] theorem noKeyAction_next (s : State) : noKeyAction s = .next s := rfl

end Sys2Proof.Machine
end

