-- ==== Sys2Proof/Laws/PerInstr.lean ====
section
/-! SUPPORT. A statement family over all instructions: the code the encoder writes lies in the instruction's row of
spec/opcode_table.json, that is, it has the row's width and the row's match under the row's mask. -/

namespace Sys2Proof.Laws

/-- A row of the opcode table: its width, match and mask. -/
structure Row where
  width : Nat
  pattern : Nat
  mask : Nat

/-- The row of an instruction, as the table has it. -/
def rowOf : Instr → Row
  | .start => ⟨16, 0x2000, 0xFFFF⟩
  | .stop => ⟨16, 0x4000, 0xFFFF⟩
  | .wrbyte _ => ⟨16, 0x6000, 0xFF00⟩
  | .sendframe _ => ⟨16, 0x8000, 0xFF00⟩
  | .render _ _ _ => ⟨16, 0xA000, 0xE000⟩
  | .scan => ⟨16, 0xC000, 0xFFFF⟩
  | .busDataAutoinc => ⟨8, 0x40, 0xFF⟩
  | .busAddr0 => ⟨8, 0xC0, 0xFF⟩
  | .busDisplayOn => ⟨8, 0x8F, 0xFF⟩
  | .seg0 => ⟨8, 0x3F, 0xFF⟩
  | .seg1 => ⟨8, 0x6, 0xFF⟩
  | .seg2 => ⟨8, 0x5B, 0xFF⟩
  | .seg3 => ⟨8, 0x4F, 0xFF⟩
  | .seg4 => ⟨8, 0x66, 0xFF⟩
  | .seg5 => ⟨8, 0x6D, 0xFF⟩
  | .seg6 => ⟨8, 0x7D, 0xFF⟩
  | .seg7 => ⟨8, 0x7, 0xFF⟩
  | .seg8 => ⟨8, 0x7F, 0xFF⟩
  | .seg9 => ⟨8, 0x6F, 0xFF⟩
  | .colonBit _ => ⟨8, 0x80, 0x80⟩
  | .key1 => ⟨8, 0x31, 0xFF⟩
  | .key2 => ⟨8, 0x32, 0xFF⟩
  | .key3 => ⟨8, 0x33, 0xFF⟩
  | .keyA => ⟨8, 0x41, 0xFF⟩
  | .key4 => ⟨8, 0x34, 0xFF⟩
  | .key5 => ⟨8, 0x35, 0xFF⟩
  | .key6 => ⟨8, 0x36, 0xFF⟩
  | .keyB => ⟨8, 0x42, 0xFF⟩
  | .key7 => ⟨8, 0x37, 0xFF⟩
  | .key8 => ⟨8, 0x38, 0xFF⟩
  | .key9 => ⟨8, 0x39, 0xFF⟩
  | .keyC => ⟨8, 0x43, 0xFF⟩
  | .keyStar => ⟨8, 0x2A, 0xFF⟩
  | .key0 => ⟨8, 0x30, 0xFF⟩
  | .keyHash => ⟨8, 0x23, 0xFF⟩
  | .keyD => ⟨8, 0x44, 0xFF⟩
  | .keyNone => ⟨8, 0x0, 0xFF⟩

/-- The encoder's code lies in the instruction's row. -/
def TableRow.Statement (i : Instr) : Prop :=
  codeWidth (encode i) = (rowOf i).width ∧ codeValue (encode i) &&& (rowOf i).mask = (rowOf i).pattern

theorem wrbyteWord_row : ∀ b : Byte, (wrbyteWord b).toNat &&& 0xFF00 = 0x6000 := by decide

theorem sendframeWord_row : ∀ b : Byte, (sendframeWord b).toNat &&& 0xFF00 = 0x8000 := by decide

theorem colonByte_row : ∀ low : BitVec 7, ((0x80 : Byte) ||| low.zeroExtend 8).toNat &&& 0x80 = 0x80 := by decide

/-- The operation field of a RENDER word, bit by bit. -/
theorem renderWord_row (m s : BitVec 6) (c : Bool) : (renderWord m s c).toNat &&& 0xE000 = 0xA000 := by
  have h : renderWord m s c &&& 0xE000#16 = 0xA000#16 := by
    ext i hi
    simp only [renderWord]
    interval_cases i <;> simp
  have h' := congrArg BitVec.toNat h
  rwa [BitVec.toNat_and] at h'

theorem TableRow.start : TableRow.Statement .start := ⟨rfl, rfl⟩
theorem TableRow.stop : TableRow.Statement .stop := ⟨rfl, rfl⟩
theorem TableRow.wrbyte (b : Byte) : TableRow.Statement (.wrbyte b) := ⟨rfl, wrbyteWord_row b⟩
theorem TableRow.sendframe (b : Byte) : TableRow.Statement (.sendframe b) := ⟨rfl, sendframeWord_row b⟩
theorem TableRow.render (m s : BitVec 6) (c : Bool) : TableRow.Statement (.render m s c) := ⟨rfl, renderWord_row m s c⟩
theorem TableRow.scan : TableRow.Statement .scan := ⟨rfl, rfl⟩
theorem TableRow.busDataAutoinc : TableRow.Statement .busDataAutoinc := ⟨rfl, rfl⟩
theorem TableRow.busAddr0 : TableRow.Statement .busAddr0 := ⟨rfl, rfl⟩
theorem TableRow.busDisplayOn : TableRow.Statement .busDisplayOn := ⟨rfl, rfl⟩
theorem TableRow.seg0 : TableRow.Statement .seg0 := ⟨rfl, rfl⟩
theorem TableRow.seg1 : TableRow.Statement .seg1 := ⟨rfl, rfl⟩
theorem TableRow.seg2 : TableRow.Statement .seg2 := ⟨rfl, rfl⟩
theorem TableRow.seg3 : TableRow.Statement .seg3 := ⟨rfl, rfl⟩
theorem TableRow.seg4 : TableRow.Statement .seg4 := ⟨rfl, rfl⟩
theorem TableRow.seg5 : TableRow.Statement .seg5 := ⟨rfl, rfl⟩
theorem TableRow.seg6 : TableRow.Statement .seg6 := ⟨rfl, rfl⟩
theorem TableRow.seg7 : TableRow.Statement .seg7 := ⟨rfl, rfl⟩
theorem TableRow.seg8 : TableRow.Statement .seg8 := ⟨rfl, rfl⟩
theorem TableRow.seg9 : TableRow.Statement .seg9 := ⟨rfl, rfl⟩
theorem TableRow.colonBit (low : BitVec 7) : TableRow.Statement (.colonBit low) := ⟨rfl, colonByte_row low⟩
theorem TableRow.key1 : TableRow.Statement .key1 := ⟨rfl, rfl⟩
theorem TableRow.key2 : TableRow.Statement .key2 := ⟨rfl, rfl⟩
theorem TableRow.key3 : TableRow.Statement .key3 := ⟨rfl, rfl⟩
theorem TableRow.keyA : TableRow.Statement .keyA := ⟨rfl, rfl⟩
theorem TableRow.key4 : TableRow.Statement .key4 := ⟨rfl, rfl⟩
theorem TableRow.key5 : TableRow.Statement .key5 := ⟨rfl, rfl⟩
theorem TableRow.key6 : TableRow.Statement .key6 := ⟨rfl, rfl⟩
theorem TableRow.keyB : TableRow.Statement .keyB := ⟨rfl, rfl⟩
theorem TableRow.key7 : TableRow.Statement .key7 := ⟨rfl, rfl⟩
theorem TableRow.key8 : TableRow.Statement .key8 := ⟨rfl, rfl⟩
theorem TableRow.key9 : TableRow.Statement .key9 := ⟨rfl, rfl⟩
theorem TableRow.keyC : TableRow.Statement .keyC := ⟨rfl, rfl⟩
theorem TableRow.keyStar : TableRow.Statement .keyStar := ⟨rfl, rfl⟩
theorem TableRow.key0 : TableRow.Statement .key0 := ⟨rfl, rfl⟩
theorem TableRow.keyHash : TableRow.Statement .keyHash := ⟨rfl, rfl⟩
theorem TableRow.keyD : TableRow.Statement .keyD := ⟨rfl, rfl⟩
theorem TableRow.keyNone : TableRow.Statement .keyNone := ⟨rfl, rfl⟩

end Sys2Proof.Laws
end

