-- ==== Sys2Proof/Laws/Step.lean ====
section
/-! SUPPORT. What a step can do, said once, and the readings of `runSteps`. -/

namespace Sys2Proof.Machine

/-! ## Instructions -/

/-- Every framer command has events. -/
theorem expand_ne_nil {i : Instr} (hw : i.wellFormed = true) (hc : i.consumer = .framer) : expand i ≠ [] := by
  cases i <;> simp only [Instr.consumer, reduceCtorEq] at hc
  case render m sec c =>
    obtain ⟨df, hd⟩ := digits_some c hw
    simp [expand, hd, expandRefresh, refreshFrames, expandFrames, frame, expandStart, settled]
  all_goals
    simp [expand, expandStart, expandStop, expandWrbyte, expandSendframe, bitSlot, settled]

/-- What a framer command does: accepted by an idle framer, else waiting. -/
theorem exec_framer_cases {i : Instr} {s t : State} (hc : i.consumer = .framer) (h : exec i s = .next t) :
    i.wellFormed = true ∧
      ((s.fBusy = true ∧ t = s) ∨
        ∃ w df, s.fBusy = false ∧ encode i = .word w ∧ t = loadFramer w (expand i) df s ∧
          (df = s.df ∨ ∃ m sec c, i = .render m sec c ∧ digits m sec c = some df)) := by
  have simple : ∀ w es, acceptFramer w es s.df s = .next t → (s.fBusy = true ∧ t = s) ∨
      (s.fBusy = false ∧ t = loadFramer w es s.df s) := by
    intro w es ha
    rcases acceptFramer_cases w es s.df s with ⟨hb, h'⟩ | ⟨hb, h'⟩ <;> rw [h'] at ha <;> cases ha
    · exact .inl ⟨hb, rfl⟩
    · exact .inr ⟨hb, rfl⟩
  cases i <;> simp only [Instr.consumer, reduceCtorEq] at hc
  case start =>
    exact ⟨rfl, (simple startWord expandStart h).imp_right fun h => ⟨startWord, s.df, h.1, rfl, h.2, .inl rfl⟩⟩
  case stop =>
    exact ⟨rfl, (simple stopWord expandStop h).imp_right fun h => ⟨stopWord, s.df, h.1, rfl, h.2, .inl rfl⟩⟩
  case wrbyte b =>
    exact ⟨rfl, (simple (wrbyteWord b) (expandWrbyte b) h).imp_right fun h => ⟨wrbyteWord b, s.df, h.1, rfl, h.2, .inl rfl⟩⟩
  case sendframe b =>
    exact ⟨rfl, (simple (sendframeWord b) (expandSendframe b) h).imp_right fun h =>
      ⟨sendframeWord b, s.df, h.1, rfl, h.2, .inl rfl⟩⟩
  case render m sec c =>
    have h : execRender m sec c s = .next t := h
    rcases execRender_cases m sec c s with ⟨_, h'⟩ | ⟨df, hw, hd, h'⟩
    · rw [h'] at h; cases h
    · refine ⟨hw, ?_⟩
      rw [h'] at h
      rcases acceptFramer_cases (renderWord m sec c) (expandRefresh df) df s with ⟨hb, ha⟩ | ⟨hb, ha⟩ <;> rw [ha] at h <;>
        cases h
      · exact .inl ⟨hb, rfl⟩
      · exact .inr ⟨renderWord m sec c, df, hb, rfl, by simp [expand, hd], .inr ⟨m, sec, c, rfl, hd⟩⟩

/-- What SCAN does: accepted by an idle scanner, else waiting. -/
theorem exec_scanner_cases {i : Instr} {s t : State} (hc : i.consumer = .scanner) (h : exec i s = .next t) :
    i = .scan ∧ ((s.kBusy = true ∧ t = s) ∨ (s.kBusy = false ∧ t = loadScanner s)) := by
  cases i <;> simp only [Instr.consumer, reduceCtorEq] at hc
  have h : execScan s = .next t := h
  rcases execScan_cases s with ⟨hb, h'⟩ | ⟨hb, h'⟩ <;> rw [h'] at h <;> cases h
  · exact ⟨rfl, .inl ⟨hb, rfl⟩⟩
  · exact ⟨rfl, .inr ⟨hb, rfl⟩⟩

/-- What a byte row of the display does: it changes the sink and its memory, at most one byte below address 4. -/
theorem exec_display_cases {i : Instr} {s t : State} (hc : i.consumer = .display) (h : exec i s = .next t) :
    (∃ k, t = { s with sink := k }) ∨
      ∃ b k, s.sink.addr < displaySize ∧ t = { s with dm := s.dm.write s.sink.addr b, sink := k } := by
  have store : ∀ b, (Host.Outcome.next (storeData b s) : Out) = .next t →
      (∃ k, t = { s with sink := k }) ∨
        ∃ b k, s.sink.addr < displaySize ∧ t = { s with dm := s.dm.write s.sink.addr b, sink := k } := by
    intro b hb
    cases hb
    rcases storeData_cases b s with ⟨ha, h'⟩ | ⟨_, h'⟩ <;> rw [h']
    · exact .inr ⟨b, _, ha, rfl⟩
    · exact .inl ⟨_, rfl⟩
  cases i <;> simp only [Instr.consumer, reduceCtorEq] at hc
  case busDataAutoinc =>
    simp only [exec, execBusDataAutoinc] at h
    split at h <;> cases h <;> exact .inl ⟨_, rfl⟩
  case busAddr0 =>
    simp only [exec, execBusAddr0] at h
    split at h <;> cases h <;> exact .inl ⟨_, rfl⟩
  case busDisplayOn =>
    simp only [exec, execBusDisplayOn] at h
    split at h <;> cases h <;> exact .inl ⟨_, rfl⟩
  all_goals exact store _ h

/-- What a key result does: it changes RunState and the foreground's position at most. -/
theorem exec_host_cases {i : Instr} {s t : State} (hc : i.consumer = .host) (h : exec i s = .next t) :
    ∃ r f, (f = s.fg ∨ f = .resetMinutes) ∧ t = { s with runState := r, fg := f } := by
  cases i <;> simp only [Instr.consumer, reduceCtorEq] at hc
  case keyC => cases h; exact ⟨_, _, .inr rfl, rfl⟩
  all_goals cases h; exact ⟨_, _, .inl rfl, rfl⟩

/-! ## The step -/

/-- A step whose move presents no code is the agent's own step. -/
theorem step_of_fetch_none {s : State} (h : fetch (nextMove s) (takeMove s) = none) :
    step s = .next (unitMove (nextMove s) (takeMove s)) := by simp [step, h]

/-- A step with a next state: the agent's own step, an instruction that ran, or an unlisted byte. -/
theorem step_next_cases {s t : State} (h : step s = .next t) :
    (fetch (nextMove s) (takeMove s) = none ∧ t = unitMove (nextMove s) (takeMove s)) ∨
      (∃ c u i, fetch (nextMove s) (takeMove s) = some (c, u) ∧ decode c = .ok i ∧
        exec i (presented i (takeMove s) u) = .next t) ∨
      ∃ c u, fetch (nextMove s) (takeMove s) = some (c, u) ∧ decode c = .unlisted ∧ t = passByte c u := by
  unfold step at h
  split at h
  · rename_i hf
    cases h
    exact .inl ⟨hf, rfl⟩
  · rename_i c u hf
    split at h
    · rename_i i hd
      exact .inr (.inl ⟨c, u, i, hf, hd, h⟩)
    · cases h
    · cases h
    · rename_i hd
      cases h
      exact .inr (.inr ⟨c, u, hf, hd, rfl⟩)

/-- Where a code comes from: the command port, the foreground, the handler or the display sink. -/
theorem fetch_some_cases {m : Move} {s t : State} {c : Code} (h : fetch m s = some (c, t)) :
    (m = .command ∧ fetchCommand s = some (c, t)) ∨
      (m = .foreground ∧ fetchForeground s = some (c, t)) ∨
      (m = .handler ∧ fetchHandler s = some (c, t)) ∨
      (m = .display ∧ fetchDisplay s = some (c, t)) := by
  cases m <;> simp only [fetch] at h
  case command => exact .inl ⟨rfl, h⟩
  case foreground => exact .inr (.inl ⟨rfl, h⟩)
  case handler => exact .inr (.inr (.inl ⟨rfl, h⟩))
  case display => exact .inr (.inr (.inr ⟨rfl, h⟩))
  all_goals cases h

/-- The state an instruction runs in is the one its code was taken in, or the one before. -/
theorem presented_cases (i : Instr) (s t : State) :
    (ready i s = true ∧ presented i s t = t) ∨ (ready i s = false ∧ presented i s t = s) := by
  cases h : ready i s <;> simp [presented, h]

/-! ## Consumers -/

/-- The consumers of the codes of a space. -/
theorem listed_consumer {rows : List (Byte × Instr)} {k : Consumer} (hr : ∀ r ∈ rows, r.2.consumer = k) {b : Byte} {i : Instr}
    (h : listed (rows.lookup b) = .ok i) : i.consumer = k := by
  induction rows with
  | nil => simp [listed] at h
  | cons r rs ih =>
    rw [List.lookup_cons] at h
    split at h
    · simp only [listed, Verdict.ok.injEq] at h
      exact h ▸ hr r (by simp)
    · exact ih (fun r hm => hr r (by simp [hm])) h

/-- A command word is executed by a unit of the block. -/
theorem decode_word_consumer {w : Word} {i : Instr} (h : decode (.word w) = .ok i) :
    i.consumer = .framer ∨ i = .scan := by
  have h : decodeWord w = .ok i := h
  unfold decodeWord at h
  split at h <;> (try split at h) <;> cases h <;> simp [Instr.consumer]

/-- A byte of a frame is executed by the display sink. -/
theorem decode_bus_consumer {b : Byte} {i : Instr} (h : decode (.bus b) = .ok i) : i.consumer = .display :=
  listed_consumer (rows := busRows) (by decide) h

/-- A later byte of a frame is executed by the display sink. -/
theorem decode_data_consumer {b : Byte} {i : Instr} (h : decode (.data b) = .ok i) : i.consumer = .display := by
  have h : decodeData b = .ok i := h
  unfold decodeData at h
  split at h
  · cases h; rfl
  · exact listed_consumer (rows := segRows) (by decide) h

/-- A key result is executed by the host. -/
theorem decode_key_consumer {b : Byte} {i : Instr} (h : decode (.key b) = .ok i) : i.consumer = .host :=
  listed_consumer (rows := keyRows) (by decide) h

/-! ## A step, by what it does to the block -/

/-- `u` is `s` as far as the block goes: the framer, the scanner, the trace; the display memory has at most one more byte. -/
def SameBlock (s u : State) : Prop :=
  framerPart u = framerPart s ∧ scannerPart u = scannerPart s ∧ u.trace = s.trace ∧
    (u.dm = s.dm ∨ ∃ a b, a < displaySize ∧ u.dm = s.dm.write a b)

theorem SameBlock.refl (s : State) : SameBlock s s := ⟨rfl, rfl, rfl, .inl rfl⟩

theorem sameBlock_takeMove (s : State) : SameBlock s (takeMove s) := by
  unfold takeMove
  split <;> exact SameBlock.refl s

/-- What a fetch takes is outside the block. -/
theorem sameBlock_fetch {m : Move} {s t : State} {c : Code} (h : fetch m s = some (c, t)) :
    SameBlock s t ∧ t.dm = s.dm := by
  rcases fetch_some_cases h with ⟨_, h⟩ | ⟨_, h⟩ | ⟨_, h⟩ | ⟨_, h⟩
  · rcases fetchCommand_some h with ⟨_, w, ws, _, _, rfl⟩
    exact ⟨SameBlock.refl s, rfl⟩
  · rcases fetchForeground_some h with ⟨_, ⟨w, a, _, _, rfl⟩ | ⟨k, _, _, rfl⟩⟩ <;> exact ⟨SameBlock.refl s, rfl⟩
  · rcases fetchHandler_some h with ⟨_, w, _, _, rfl⟩
    exact ⟨SameBlock.refl s, rfl⟩
  · rcases fetchDisplay_some h with ⟨_, ⟨b, bs, _, _, rfl⟩ | ⟨b, bs, fs, _, _, _, rfl⟩⟩ <;> exact ⟨SameBlock.refl s, rfl⟩

/-- A step leaves the block alone, accepts a command, is a unit's own step, or is a reset. -/
theorem step_block_cases {s t : State} (h : step s = .next t) :
    (nextMove s = .framer ∧ t = framerStep (takeMove s)) ∨
      ((nextMove s = .scannerIdeal ∨ ∃ v, nextMove s = .scanner v) ∧ ∃ v, t = scannerStep v (takeMove s)) ∨
      (nextMove s = .rst ∧ t = resetMachine (takeMove s)) ∨
      SameBlock s t ∨
      (∃ u i w df, SameBlock s u ∧ i.consumer = .framer ∧ i.wellFormed = true ∧ u.fBusy = false ∧ encode i = .word w ∧
        t = loadFramer w (expand i) df u ∧ (df = u.df ∨ ∃ m sec c, i = .render m sec c ∧ digits m sec c = some df)) ∨
      ∃ u, SameBlock s u ∧ u.kBusy = false ∧ t = loadScanner u := by
  have ht := sameBlock_takeMove s
  have hd : (takeMove s).dm = s.dm := takeMove_dm s
  have trans : ∀ {u}, SameBlock (takeMove s) u → SameBlock s u := fun {u} hu =>
    ⟨hu.1.trans ht.1, hu.2.1.trans ht.2.1, hu.2.2.1.trans ht.2.2.1, hd ▸ hu.2.2.2⟩
  rcases step_next_cases h with ⟨_, rfl⟩ | ⟨c, u, i, hf, hdec, hx⟩ | ⟨c, u, hf, hdec, rfl⟩
  · cases hm : nextMove s with
    | framer => exact .inl ⟨rfl, rfl⟩
    | scanner v => exact .inr (.inl ⟨.inr ⟨v, rfl⟩, v, rfl⟩)
    | scannerIdeal => exact .inr (.inl ⟨.inl rfl, _, rfl⟩)
    | rst => exact .inr (.inr (.inl ⟨rfl, rfl⟩))
    | command => exact .inr (.inr (.inr (.inl ht)))
    | foreground =>
      refine .inr (.inr (.inr (.inl (trans ?_))))
      simp only [unitMove]
      split
      · unfold foregroundStep
        split <;> (try split) <;> exact SameBlock.refl _
      · exact SameBlock.refl _
    | handler =>
      refine .inr (.inr (.inr (.inl (trans ?_))))
      simp only [unitMove]
      split
      · unfold handlerStep
        split <;> (try split) <;> exact SameBlock.refl _
      · exact SameBlock.refl _
    | tick =>
      refine .inr (.inr (.inr (.inl (trans ?_))))
      rcases takeTick_cases (takeMove s) with ⟨_, h'⟩ | ⟨_, h'⟩ <;> simp only [unitMove, h'] <;> exact SameBlock.refl _
    | display =>
      refine .inr (.inr (.inr (.inl (trans ?_))))
      simp only [unitMove]
      unfold displayIdle
      split
      · exact SameBlock.refl _
      · split <;> exact SameBlock.refl _
    | press r c => exact .inr (.inr (.inr (.inl (trans (SameBlock.refl _)))))
    | release r c => exact .inr (.inr (.inr (.inl (trans (SameBlock.refl _)))))
    | peripheralReady => exact .inr (.inr (.inr (.inl (trans (SameBlock.refl _)))))
  · obtain ⟨hu, hud⟩ := sameBlock_fetch hf
    have hp : SameBlock s (presented i (takeMove s) u) ∧ (presented i (takeMove s) u).dm = s.dm := by
      rcases presented_cases i (takeMove s) u with ⟨_, h'⟩ | ⟨_, h'⟩ <;> rw [h']
      · exact ⟨trans hu, hud.trans hd⟩
      · exact ⟨ht, hd⟩
    have hcon : i.consumer = .framer ∨ i.consumer = .scanner ∨ i.consumer = .display ∨ i.consumer = .host := by
      cases i.consumer <;> simp
    rcases hcon with hc | hc | hc | hc
    · obtain ⟨hw, ⟨_, rfl⟩ | ⟨w, df, hb, he, rfl, hdf⟩⟩ := exec_framer_cases hc hx
      · exact .inr (.inr (.inr (.inl hp.1)))
      · exact .inr (.inr (.inr (.inr (.inl ⟨_, i, w, df, hp.1, hc, hw, hb, he, rfl, hdf⟩))))
    · obtain ⟨_, ⟨_, rfl⟩ | ⟨hb, rfl⟩⟩ := exec_scanner_cases hc hx
      · exact .inr (.inr (.inr (.inl hp.1)))
      · exact .inr (.inr (.inr (.inr (.inr ⟨_, hp.1, hb, rfl⟩))))
    · refine .inr (.inr (.inr (.inl ?_)))
      rcases exec_display_cases hc hx with ⟨k, rfl⟩ | ⟨b, k, ha, rfl⟩
      · exact hp.1
      · exact ⟨hp.1.1, hp.1.2.1, hp.1.2.2.1, .inr ⟨_, b, ha, by rw [hp.2]⟩⟩
    · obtain ⟨r, f, _, rfl⟩ := exec_host_cases hc hx
      exact .inr (.inr (.inr (.inl hp.1)))
  · obtain ⟨hu, hud⟩ := sameBlock_fetch hf
    refine .inr (.inr (.inr (.inl ?_)))
    have hs := trans hu
    cases c with
    | word w => exact hs
    | key b => exact hs
    | bus b => exact hs
    | data b =>
      simp only [passByte]
      rcases storeData_cases b u with ⟨ha, h'⟩ | ⟨_, h'⟩ <;> rw [h']
      · exact ⟨hs.1, hs.2.1, hs.2.2.1, .inr ⟨_, b, ha, by rw [hud, hd]⟩⟩
      · exact hs

/-! ## The completion pulses -/

/-- A step begins with both pulses down. -/
@[simp] theorem takeMove_pulsePart (s : State) : pulsePart (takeMove s) = (false, false) := by simp [pulsePart]

/-- No instruction gives a pulse. -/
theorem exec_pulsePart {i : Instr} {s t : State} (h : exec i s = .next t) : pulsePart t = pulsePart s := by
  cases hc : i.consumer with
  | framer =>
    obtain ⟨_, ⟨_, rfl⟩ | ⟨w, df, _, _, rfl, _⟩⟩ := exec_framer_cases hc h <;> rfl
  | scanner =>
    obtain ⟨_, ⟨_, rfl⟩ | ⟨_, rfl⟩⟩ := exec_scanner_cases hc h <;> rfl
  | display =>
    rcases exec_display_cases hc h with ⟨k, rfl⟩ | ⟨b, k, _, rfl⟩ <;> rfl
  | host =>
    obtain ⟨r, f, _, rfl⟩ := exec_host_cases hc h
    rfl

/-- Taking a code gives no pulse. -/
theorem fetch_pulsePart {m : Move} {s t : State} {c : Code} (h : fetch m s = some (c, t)) : pulsePart t = pulsePart s := by
  rcases fetch_some_cases h with ⟨_, h⟩ | ⟨_, h⟩ | ⟨_, h⟩ | ⟨_, h⟩
  · rcases fetchCommand_some h with ⟨_, w, ws, _, _, rfl⟩; rfl
  · rcases fetchForeground_some h with ⟨_, ⟨w, a, _, _, rfl⟩ | ⟨k, _, _, rfl⟩⟩ <;> rfl
  · rcases fetchHandler_some h with ⟨_, w, _, _, rfl⟩; rfl
  · rcases fetchDisplay_some h with ⟨_, ⟨b, bs, _, _, rfl⟩ | ⟨b, bs, fs, _, _, _, rfl⟩⟩ <;> rfl

/-- A step that is not a unit's own leaves both pulses down. -/
theorem step_pulses_cases {s t : State} (h : step s = .next t) :
    (nextMove s = .framer ∧ t = framerStep (takeMove s)) ∨
      ((nextMove s = .scannerIdeal ∨ ∃ v, nextMove s = .scanner v) ∧ ∃ v, t = scannerStep v (takeMove s)) ∨
      pulsePart t = (false, false) := by
  have hp := takeMove_pulsePart s
  rcases step_next_cases h with ⟨_, rfl⟩ | ⟨c, u, i, hf, _, hx⟩ | ⟨c, u, hf, _, rfl⟩
  · cases hm : nextMove s with
    | framer => exact .inl ⟨rfl, rfl⟩
    | scanner v => exact .inr (.inl ⟨.inr ⟨v, rfl⟩, v, rfl⟩)
    | scannerIdeal => exact .inr (.inl ⟨.inl rfl, _, rfl⟩)
    | foreground =>
      refine .inr (.inr ?_)
      simp only [unitMove]
      split
      · unfold foregroundStep
        split <;> (try split) <;> exact hp
      · exact hp
    | handler =>
      refine .inr (.inr ?_)
      simp only [unitMove]
      split
      · unfold handlerStep
        split <;> (try split) <;> exact hp
      · exact hp
    | tick =>
      refine .inr (.inr ?_)
      rcases takeTick_cases (takeMove s) with ⟨_, h'⟩ | ⟨_, h'⟩ <;> simp only [unitMove, h'] <;> exact hp
    | display =>
      refine .inr (.inr ?_)
      simp only [unitMove]
      unfold displayIdle
      split
      · exact hp
      · split <;> exact hp
    | rst => exact .inr (.inr rfl)
    | command => exact .inr (.inr hp)
    | press r c => exact .inr (.inr hp)
    | release r c => exact .inr (.inr hp)
    | peripheralReady => exact .inr (.inr hp)
  · refine .inr (.inr ?_)
    rw [exec_pulsePart hx]
    rcases presented_cases i (takeMove s) u with ⟨_, h'⟩ | ⟨_, h'⟩ <;> rw [h']
    · rw [fetch_pulsePart hf, hp]
    · exact hp
  · refine .inr (.inr ?_)
    have hu := (fetch_pulsePart hf).trans hp
    cases c with
    | data b =>
      simp only [passByte]
      rcases storeData_cases b u with ⟨_, h'⟩ | ⟨_, h'⟩ <;> rw [h'] <;> exact hu
    | word w => exact hu
    | bus b => exact hu
    | key b => exact hu

/-! ## Runs -/

@[simp] theorem runSteps_zero (s : State) : runSteps 0 s = .next s := rfl

theorem runSteps_succ_of_next {s t : State} (n : Nat) (h : step s = .next t) : runSteps (n + 1) s = runSteps n t := by
  simp [runSteps, h]

/-- `runSteps` is the host's run of the core. -/
theorem runSteps_eq_run (n : Nat) (s : State) : runSteps n s = Host.Core.run Sys2Proof.core n s := by
  induction n generalizing s with
  | zero => rfl
  | succ n ih =>
    cases h : step s with
    | next t =>
      have h' : Sys2Proof.core.step s = .next t := h
      rw [runSteps_succ_of_next n h, ih t]
      simp only [Host.Core.run, h']
      rfl
    | fault r =>
      have h' : Sys2Proof.core.step s = .fault r := h
      simp only [runSteps, h, Host.Core.run, h']
      rfl
    | refused r =>
      have h' : Sys2Proof.core.step s = .refused r := h
      simp only [runSteps, h, Host.Core.run, h']
      rfl

/-- The machine right after reset has its memory in the canonical form. -/
theorem reset_memory_wf : State.reset.dm.wf = true := rfl

end Sys2Proof.Machine
end

