-- ==== Sys2Proof/Tests/Slice0.lean ====
section
/-! SUPPORT. Own tests: the smoke of the checks, one written-out code for every constructor, one step on small states with
the values of 95_test_vectors.md, and a witness for the hypotheses of every obligation that has some. -/

open Sys2Proof Sys2Proof.Machine

namespace Sys2Proof.Tests

/-! ## WellFormed: an ill-formed term for each check (41_framer_commands.md R146) -/

theorem test_wf_minutes_60 : (Instr.render 60 0 false).wellFormed = false := by decide
theorem test_wf_seconds_60 : (Instr.render 0 60 true).wellFormed = false := by decide
theorem test_wf_59_59 : (Instr.render 59 59 true).wellFormed = true := by decide

/-! ## Decoding: every constructor from a code written out from 30_encoding.md R95, R100, R102, R103, R105 -/

theorem test_decode_start : decodeTableWord 16 0b0010000000000000 = some .start := by decide
theorem test_decode_stop : decodeTableWord 16 0b0100000000000000 = some .stop := by decide
theorem test_decode_wrbyte : decodeTableWord 16 0b0110000010001111 = some (.wrbyte 0b10001111) := by decide
theorem test_decode_sendframe : decodeTableWord 16 0b1000000001000000 = some (.sendframe 0b01000000) := by decide
theorem test_decode_render : decodeTableWord 16 0b1011001100100010 = some (.render 12 34 true) := by decide
theorem test_decode_render_last : decodeTableWord 16 0b1010111011111011 = some (.render 59 59 false) := by decide
theorem test_decode_scan : decodeTableWord 16 0b1100000000000000 = some .scan := by decide
theorem test_decode_busDataAutoinc : decodeTableWord 8 0b01000000 = some .busDataAutoinc := by decide
theorem test_decode_busAddr0 : decodeTableWord 8 0b11000000 = some .busAddr0 := by decide
theorem test_decode_busDisplayOn : decodeTableWord 8 0b10001111 = some .busDisplayOn := by decide
theorem test_decode_seg0 : decodeTableWord 8 0b00111111 = some .seg0 := by decide
theorem test_decode_seg1 : decodeTableWord 8 0b00000110 = some .seg1 := by decide
theorem test_decode_seg2 : decodeTableWord 8 0b01011011 = some .seg2 := by decide
theorem test_decode_seg3 : decodeTableWord 8 0b01001111 = some .seg3 := by decide
theorem test_decode_seg4 : decodeTableWord 8 0b01100110 = some .seg4 := by decide
theorem test_decode_seg5 : decodeTableWord 8 0b01101101 = some .seg5 := by decide
theorem test_decode_seg6 : decodeTableWord 8 0b01111101 = some .seg6 := by decide
theorem test_decode_seg7 : decodeTableWord 8 0b00000111 = some .seg7 := by decide
theorem test_decode_seg8 : decodeTableWord 8 0b01111111 = some .seg8 := by decide
theorem test_decode_seg9 : decodeTableWord 8 0b01101111 = some .seg9 := by decide
theorem test_decode_colonBit : decodeTableWord 8 0b10000000 = some (.colonBit 0) := by decide
theorem test_decode_colonBit_seg4 : decodeTableWord 8 0b11100110 = some (.colonBit 0b1100110) := by decide
theorem test_decode_key1 : decodeTableWord 8 0b00110001 = some .key1 := by decide
theorem test_decode_key2 : decodeTableWord 8 0b00110010 = some .key2 := by decide
theorem test_decode_key3 : decodeTableWord 8 0b00110011 = some .key3 := by decide
theorem test_decode_keyA : decodeTableWord 8 0b01000001 = some .keyA := by decide
theorem test_decode_key4 : decodeTableWord 8 0b00110100 = some .key4 := by decide
theorem test_decode_key5 : decodeTableWord 8 0b00110101 = some .key5 := by decide
theorem test_decode_key6 : decodeTableWord 8 0b00110110 = some .key6 := by decide
theorem test_decode_keyB : decodeTableWord 8 0b01000010 = some .keyB := by decide
theorem test_decode_key7 : decodeTableWord 8 0b00110111 = some .key7 := by decide
theorem test_decode_key8 : decodeTableWord 8 0b00111000 = some .key8 := by decide
theorem test_decode_key9 : decodeTableWord 8 0b00111001 = some .key9 := by decide
theorem test_decode_keyC : decodeTableWord 8 0b01000011 = some .keyC := by decide
theorem test_decode_keyStar : decodeTableWord 8 0b00101010 = some .keyStar := by decide
theorem test_decode_key0 : decodeTableWord 8 0b00110000 = some .key0 := by decide
theorem test_decode_keyHash : decodeTableWord 8 0b00100011 = some .keyHash := by decide
theorem test_decode_keyD : decodeTableWord 8 0b01000100 = some .keyD := by decide
theorem test_decode_keyNone : decodeTableWord 8 0b00000000 = some .keyNone := by decide

/-- A data byte decodes by the segment rows wherever it stands in the burst, the two bus bytes among the colon bytes too. -/
theorem test_decode_data :
    decode (.data 0x3F) = .ok .seg0 ∧ decode (.data 0xC0) = .ok (.colonBit 0x40) ∧ decode (.data 0x00) = .unlisted := by
  decide

/-- Reserved words and words out of domain (95_test_vectors.md B1). -/
theorem test_decode_refused :
    decode (.word 0x0000) = .reserved ∧ decode (.word 0x2001) = .reserved ∧ decode (.word 0x6100) = .reserved ∧
      decode (.word 0xE000) = .reserved ∧ decode (.word 0xA03C) = .outOfDomain ∧ decode (.word 0xAF00) = .outOfDomain := by
  decide

/-- The bytes of the segment rows are the table SEG (20_memory.md R60). -/
theorem test_segRows_are_seg : segRows.map Prod.fst = segTable := by decide

/-! ## One step on small states -/

/-- Reset with the open ColonPhase set, and with the moves `ms` to come. -/
def base (ms : List Move) : State := { State.reset with colonPhase := false, moves := ms }

/-- The state a step answers, or the state it began in. -/
def after (s : State) : State :=
  match step s with
  | .next t => t
  | .fault _ => s
  | .refused _ => s

/-- The step of an opcode-table word placed where it is fetched. -/
def placed (nbits w : Nat) : State := after ((base []).withFetchWord nbits w)

theorem test_start : (placed 16 0x2000).fq =
    [.write .clk true, .settle, .write .dio true, .settle, .write .dio false, .settle] := by decide
theorem test_stop_accepted : (placed 16 0x4000).fcmd = 0x4000 ∧ (placed 16 0x4000).fBusy = true ∧
    (placed 16 0x4000).trace = [.issue 0x4000] := by decide
theorem test_wrbyte : (placed 16 0x608F).fq.length = 52 ∧ (placed 16 0x608F).shr = 0x8F ∧
    (placed 16 0x608F).fq[2]? = some (.write .dio true) ∧ (placed 16 0x608F).fq[26]? = some (.write .dio false) := by decide
theorem test_sendframe : (placed 16 0x8040).fq.length = 66 ∧ (placed 16 0x8040).clk = true := by decide
theorem test_render_df : (placed 16 0xB322).df = ⟨0x06, 0xDB, 0x4F, 0x66⟩ := by decide
theorem test_render_events : (placed 16 0xB322).fq = expandRefresh ⟨0x06, 0xDB, 0x4F, 0x66⟩ := rfl
theorem test_scan : (placed 16 0xC000).kst = .drive ∧ (placed 16 0xC000).kBusy = true ∧ (placed 16 0xC000).fBusy = false := by
  decide
theorem test_reserved_refused : step ((base []).withFetchWord 16 0xE123) = .refused .reservedWord := rfl
theorem test_render_60_refused : step ((base []).withFetchWord 16 0xA03C) = .refused .renderOutOfDomain := rfl
theorem test_busDataAutoinc : (placed 8 0x40).sink.mode = .autoinc := by decide
theorem test_busAddr0_before_mode : (placed 8 0xC0).sink.refused = true := by decide
theorem test_busDisplayOn : (placed 8 0x8F).sink.on = .on := by decide
theorem test_seg4 : (placed 8 0x66).dm = [(0, 0x66)] ∧ (placed 8 0x66).sink.addr = 1 := by decide
theorem test_colonBit : (placed 8 0xDB).dm = [(0, 0xDB)] := by decide
theorem test_keyA : (placed 8 0x41).runState = .running := by decide
theorem test_keyB : (placed 8 0x42).runState = .stopped ∧ (placed 8 0x42).fg = .issue 0xC000 .scan := by decide
theorem test_keyC : (placed 8 0x43).fg = .resetMinutes := by decide
theorem test_keyD : (placed 8 0x44).fg = .issue 0xC000 .scan ∧ (placed 8 0x44).runState = .stopped := by decide

/-- The framer's first two events of START (40_framer_primitives.md R121, R127). -/
theorem test_framer_step :
    (framerStep (framerStep (placed 16 0x4000))).trace = [.issue 0x4000, .fr (.write .clk false), .fr .settle] ∧
      levels (framerStep (placed 16 0x4000)) = (false, true) := by decide

/-- The scan of one pressed key '5', row 1 column 1 (95_test_vectors.md, the cell vectors). -/
theorem test_scan_key5 :
    (scannerRunIdeal 7 { loadScanner (base []) with pressed := 0x0020 }).key = 0x35 ∧
      (scannerRunIdeal 7 { loadScanner (base []) with pressed := 0x0020 }).trace =
        [.issue 0xC000, .rowWrite 1, .colSample 0, .rowWrite 2, .colSample 2, .rowWrite 0, .debounce, .ret 0x35] := by
  decide

/-- The tick at 59:59 (43_host_stopwatch.md R196: modulo one hour). -/
theorem test_tick_wraps :
    (handlerRun 7 { base [] with handler := .readRun, runState := .running, minutes := 59, seconds := 59 }).minutes = 0 ∧
      (handlerRun 7 { base [] with handler := .readRun, runState := .running, minutes := 59, seconds := 59 }).handler =
        .issue 0xB000 := by decide

/-- 10_state.md R37, 40_framer_primitives.md R128: f_done is up after the last event and down after the next step. -/
theorem test_f_done_is_a_pulse :
    (framerRun 6 (placed 16 0x2000)).fDone = true ∧
      (after { framerRun 6 (placed 16 0x2000) with moves := [.tick] }).fDone = false := by decide

/-- 43_host_stopwatch.md R204: the reference host's word stands on cmd while the foreground issues it. -/
theorem test_cmd_port : cmdPort { base [] with fg := loopHead } = some 0xC000 ∧ cmdPort (base []) = none := by decide

/-- R102, R108: `SHOW` of 12:34 with the colon. -/
theorem test_show : asmShow ⟨0x06, 0xDB, 0x4F, 0x66⟩ =
    [.sendframe 0x40, .start, .wrbyte 0xC0, .wrbyte 0x06, .wrbyte 0xDB, .wrbyte 0x4F, .wrbyte 0x66, .stop,
      .sendframe 0x8F] := by decide

/-! ## Witnesses: a state and operands that meet the hypotheses of each obligation -/

/-- START accepted, its six events still to perform. -/
def startAccepted (ms : List Move) : State := { loadFramer 0x2000 expandStart ⟨0, 0, 0, 0⟩ (base []) with moves := ms }

/-- SCAN accepted. -/
def scanAccepted (ms : List Move) : State := { loadScanner (base []) with moves := ms }

/-- An outside host's word at the command port of an idle block. -/
def offered (w : Word) : State := { base [.command] with host := .program, program := [w] }

/-- The port once the word has been taken. -/
def taken : State := { base [] with host := .program }

/-- 70_reset_and_hazards.md R287: a finite program that has been performed is over, the reference host's run never. -/
theorem test_final_state : finalState taken = true ∧ finalState (offered 0x2000) = false ∧ finalState (base []) = false := by
  decide

theorem witness_DecodeOfEncode : (Instr.render 59 0 true).wellFormed = true := by decide

theorem witness_EncodeOfDecode : decode (.word 0xB322) = .ok (.render 12 34 true) ∧ decode (.data 0xFF) = .ok (.colonBit 127) := by
  decide

theorem witness_ReservedWordsRefused :
    fetch (nextMove (offered 0x2001)) (takeMove (offered 0x2001)) = some (.word 0x2001, taken) ∧
      decode (.word 0x2001) = .reserved := by decide

theorem witness_RenderOutOfDomainRefused :
    fetch (nextMove (offered 0xA03C)) (takeMove (offered 0xA03C)) = some (.word 0xA03C, taken) ∧
      decode (.word 0xA03C) = .outOfDomain ∧ (59 < (60 : BitVec 6).toNat ∨ 59 < (0 : BitVec 6).toNat) ∧
      (base []).minutes < 60 ∧ (base []).seconds < 60 := by decide

theorem witness_StepRunsDecodedInstruction :
    fetch (nextMove (offered 0x2000)) (takeMove (offered 0x2000)) = some (.word 0x2000, taken) ∧
      decode (.word 0x2000) = .ok .start ∧ nextMove (offered 0x2000) = .command ∧ (offered 0x2000).host = .program ∧
      (offered 0x2000).program = 0x2000 :: [] := by decide

/-- For START, STOP, WRBYTE, SENDFRAME and SCAN, whose hypothesis is an idle unit. -/
theorem witness_idle_units : (base []).fBusy = false ∧ (base []).kBusy = false := by decide

theorem witness_RenderPerformsItsEvents :
    (59 : BitVec 6).toNat ≤ 59 ∧ (0 : BitVec 6).toNat ≤ 59 ∧ (base []).fBusy = false := by decide

theorem witness_FramerAcceptance :
    (Instr.render 59 59 true).wellFormed = true ∧ (Instr.render 59 59 true).consumer = .framer ∧
      (base []).fBusy = false ∧ (∀ m sec c, Instr.start ≠ .render m sec c) ∧ ∀ b, Instr.start ≠ .wrbyte b :=
  ⟨by decide, by decide, by decide, (fun _ _ _ h => nomatch h), (fun _ h => nomatch h)⟩

/-- STOP at the command port while START is performed. -/
def offeredBusy (ms : List Move) : State := { startAccepted ms with host := .program, program := [0x4000] }

theorem witness_BusyUnitLeavesCommandWaiting :
    (Instr.start.wellFormed = true ∧ Instr.start.consumer = .framer ∧ (startAccepted []).fBusy = true) ∧
      (Instr.scan.wellFormed = true ∧ Instr.scan.consumer = .scanner ∧ (scanAccepted []).kBusy = true) ∧
      (∃ t, fetch (nextMove (offeredBusy [.command])) (takeMove (offeredBusy [.command])) = some (.word 0x4000, t)) ∧
      decode (.word 0x4000) = .ok .stop ∧ Instr.stop.consumer = .framer ∧ (offeredBusy [.command]).fBusy = true :=
  ⟨by decide, by decide, ⟨_, rfl⟩, by decide, by decide, by decide⟩

theorem witness_FramerStepPerformsHead :
    (base []).fq = [] ∧
      (startAccepted []).fq = .write .clk true :: expandStart.drop 1 ∧
      { startAccepted [] with fq := [.write .dio false, .settle] }.fq = .write .dio false :: [.settle] ∧
      { startAccepted [] with fq := [.settle] }.fq = .settle :: [] ∧
      expandStart.drop 1 ≠ [] := by decide

theorem witness_FramerRunCompletes : (startAccepted []).fq ≠ [] ∧ FramerInv (startAccepted []) := by decide

theorem witness_FramerInvariantKept :
    FramerInv (startAccepted [.framer]) ∧ ∃ t, step (startAccepted [.framer]) = .next t :=
  ⟨by decide, _, rfl⟩

theorem witness_CounterRealisationKept :
    CountersAgree (startAccepted [.framer]) ∧ ∃ t, step (startAccepted [.framer]) = .next t := by
  refine ⟨fun n => ?_, _, rfl⟩
  match n with
  | 0 => rfl
  | 1 => rfl
  | 2 => rfl
  | 3 => rfl
  | 4 => rfl
  | 5 => rfl
  | 6 => rfl
  | _ + 7 => rfl

theorem witness_EventCounts : (0 : BitVec 6).toNat ≤ 59 ∧ (59 : BitVec 6).toNat ≤ 59 := by decide

theorem witness_ShowEqualsRender : digits 12 34 true = some ⟨0x06, 0xDB, 0x4F, 0x66⟩ := by decide

theorem witness_FramerIgnoresTheRest :
    framerPart (startAccepted []) = framerPart { startAccepted [] with minutes := 7, kBusy := true } := rfl

theorem witness_SegmentTable : seg 9 = some 0x6F ∧ 10 ≤ 10 := by decide

theorem witness_DigitFrameOfRender :
    (59 : BitVec 6).toNat ≤ 59 ∧ (0 : BitVec 6).toNat ≤ 59 ∧ (base []).fBusy = false := by decide

theorem witness_LowestColumnChosen : (8 : BitVec 4) ≠ 0 ∧ 2 < (lowest 8).toNat ∧
    { base [] with kst := .ret, kcols := 6 }.kst = .ret ∧ { base [] with kst := .ret, kcols := 6 }.kcols ≠ 0 := by decide

theorem witness_MonitorFollowsTrace :
    MonitorInv (startAccepted [.framer]) ∧ nextMove (startAccepted [.framer]) ≠ .rst ∧
      ∃ t, step (startAccepted [.framer]) = .next t :=
  ⟨by decide, by decide, _, rfl⟩

theorem witness_RenderReachesTheDisplay :
    (12 : BitVec 6).toNat ≤ 59 ∧ (34 : BitVec 6).toNat ≤ 59 ∧ digits 12 34 true = some ⟨0x06, 0xDB, 0x4F, 0x66⟩ ∧
      (base []).fBusy = false ∧ (base []).mon.inframe = false ∧ (base []).mon.malformed = false ∧
      (base []).sink.refused = false ∧ (base []).sink.rest = [] ∧ (base []).sink.inbox = [] := by decide

/-- The sink with bytes of a frame to come, in a mode. -/
def sinkWith (m : SinkMode) (bs : List Byte) (a : Nat) : State :=
  { base [] with sink := { Sink.initial with mode := m, rest := bs, addr := a } }

theorem witness_BusCommandBytes :
    (base []).sink.rest = [] ∧ (sinkWith .unset [1] 0).sink.rest ≠ [] ∧
      (sinkWith .autoinc [1, 2, 3, 4] 0).sink.mode = .autoinc ∧ (sinkWith .autoinc [1, 2, 3, 4] 0).sink.rest.length ≤ 4 ∧
      4 < (sinkWith .autoinc [1, 2, 3, 4, 5] 0).sink.rest.length ∧ (base []).sink.mode = .unset := by decide

theorem witness_SegmentBytesStored :
    ((Instr.seg4, (0x66 : Byte)) ∈ [(Instr.seg0, (0x3F : Byte)), (.seg1, 0x06), (.seg2, 0x5B), (.seg3, 0x4F), (.seg4, 0x66),
        (.seg5, 0x6D), (.seg6, 0x7D), (.seg7, 0x07), (.seg8, 0x7F), (.seg9, 0x6F)]) ∧
      (∃ low : BitVec 7, Instr.colonBit 0x5B = .colonBit low ∧ (0xDB : Byte).getLsbD 7 = true ∧
        low = (0xDB : Byte).extractLsb' 0 7) ∧
      (sinkWith .autoinc [] 3).sink.addr < 4 ∧ 4 ≤ (sinkWith .autoinc [] 4).sink.addr :=
  ⟨by decide, ⟨0x5B, by decide⟩, by decide, by decide⟩

/-- A sink that has received one frame. -/
def received (f : List Byte) : State := { base [] with sink := { Sink.initial with inbox := [f] } }

theorem witness_SinkReadsWholeFrames :
    (received [0x40]).sink.refused = false ∧ (received [0x40]).sink.rest = [] ∧ (received [0x40]).sink.inbox = [0x40] :: [] ∧
      sinkFrame (sinkView (received [0x40])) [0x40] = some ⟨.autoinc, .unknown, []⟩ ∧
      sinkFrame (sinkView (received [])) [] = none := by decide

theorem witness_DisplayMemoryKept :
    DisplayInv { received [0x40] with moves := [.display] } ∧
      ∃ t, step { received [0x40] with moves := [.display] } = .next t :=
  ⟨by decide, _, rfl⟩

/-- The scanner at a position and a row, with a sample. -/
def scannerAt (k : ScanState) (r : BitVec 2) (v : BitVec 4) : State :=
  { scanAccepted [] with kst := k, krow := r, kcols := v }

theorem witness_ScannerMachine :
    (base []).kBusy = false ∧ (scannerAt .drive 0 0).kst = .drive ∧ (scannerAt .sample 0 0).kst = .sample ∧
      (1 : BitVec 4) ≠ 0 ∧ (scannerAt .sample 2 0).krow.toNat < 3 ∧ (scannerAt .sample 3 0).krow = 3 ∧
      (scannerAt .releaseHit 1 2).kst = .releaseHit ∧ (scannerAt .debounce 1 2).kst = .debounce ∧
      (scannerAt .releaseMiss 3 0).kst = .releaseMiss ∧ (scannerAt .ret 1 2).kst = .ret := by decide

theorem witness_IdealMatrixScan :
    (base []).kBusy = false ∧ (base []).pressed = 0 ∧
      { base [] with pressed := 0x8020 }.pressed.getLsbD (4 * (1 : Fin 4).val + (1 : Fin 4).val) = true ∧
      ∀ j, j < 4 * (1 : Fin 4).val + (1 : Fin 4).val → { base [] with pressed := 0x8020 }.pressed.getLsbD j = false := by
  decide

theorem witness_ScannerInvariantKept :
    ScannerInv (scanAccepted [.scanner 0]) ∧ ∃ t, step (scanAccepted [.scanner 0]) = .next t :=
  ⟨by decide, _, rfl⟩

theorem witness_KeyKeptUntilReturn :
    (∃ t, step (scanAccepted [.scanner 0]) = .next t) ∧ nextMove (scanAccepted [.scanner 0]) ≠ .rst ∧
      (scanAccepted [.scanner 0]).kst ≠ .ret ∧
      (∃ t, step { scannerAt .ret 1 2 with moves := [.framer] } = .next t) ∧
      nextMove { scannerAt .ret 1 2 with moves := [.framer] } ≠ .rst ∧
      nextMove { scannerAt .ret 1 2 with moves := [.framer] } ≠ .scannerIdeal ∧
      ∀ v, nextMove { scannerAt .ret 1 2 with moves := [.framer] } ≠ .scanner v :=
  ⟨⟨_, rfl⟩, by decide, by decide, ⟨_, rfl⟩, by decide, by decide, fun _ h => nomatch h⟩

/-- The foreground at a position, about to act. -/
def foregroundAt (f : Foreground) : State := { base [.foreground] with fg := f }

theorem witness_OtherResultsChangeNothing :
    (Instr.keyD ∈ [Instr.key1, .key2, .key3, .key4, .key5, .key6, .key7, .key8, .key9, .keyStar, .key0, .keyHash, .keyD,
        .keyNone]) ∧
      nextMove (foregroundAt (.dispatch 0x44)) = .foreground ∧ (foregroundAt (.dispatch 0x44)).host = .reference ∧
      (foregroundAt (.dispatch 0x44)).handler = .idle ∧
      (foregroundAt (.dispatch 0x44)).fg = .dispatch 0x44 ∧ (0x44 : Byte) ≠ 0x41 ∧ (0x44 : Byte) ≠ 0x42 ∧
      (0x44 : Byte) ≠ 0x43 := by decide

theorem witness_ResetKeySequence :
    (foregroundAt (.dispatch 0x43)).host = .reference ∧
      ((foregroundAt (.dispatch 0x43)).handler = .idle ∧ (foregroundAt (.dispatch 0x43)).fg = .dispatch 0x43) ∧
      nextMove (foregroundAt (.issue (renderWord 0 0 true) .reset)) = .foreground ∧
      (foregroundAt (.issue (renderWord 0 0 true) .reset)).host = .reference ∧
      (foregroundAt (.issue (renderWord 0 0 true) .reset)).handler = .idle ∧
      (foregroundAt (.issue (renderWord 0 0 true) .reset)).fg = .issue (renderWord 0 0 true) .reset ∧
      (foregroundAt (.issue (renderWord 0 0 true) .reset)).fBusy = false ∧
      (∀ f ∈ [Foreground.dispatch 0x43, .resetMinutes, .resetSeconds, .resetColon, .wait .reset],
        nextMove (foregroundAt f) = .foreground ∧ (foregroundAt f).host = .reference ∧ (foregroundAt f).handler = .idle ∧
          (foregroundAt f).fg = f) ∧
      (foregroundAt (.wait .reset)).fNoted = false ∧
      { foregroundAt (.wait .reset) with fNoted := true }.fg = .wait .reset ∧
      { foregroundAt (.wait .reset) with fNoted := true }.fNoted = true := by decide

/-- The tick handler at a position, about to act, at a time. -/
def handlerAt (h : Handler) (m sec : Nat) : State :=
  { base [.handler] with handler := h, runState := .running, minutes := m, seconds := sec }

theorem witness_TickAdvancesTime :
    (handlerAt .readRun 59 59).host = .reference ∧ (handlerAt .readRun 59 59).handler = .readRun ∧ (handlerAt .readRun 59 59).runState = .running ∧
      (handlerAt .readRun 59 59).minutes < 60 ∧ (handlerAt .readRun 59 59).seconds < 60 ∧
      7 = (if (handlerAt .readRun 59 59).seconds < 59 then 4 else if (handlerAt .readRun 59 59).minutes < 59 then 6 else 7) ∧
      6 = (if (handlerAt .readRun 58 59).seconds < 59 then 4 else if (handlerAt .readRun 58 59).minutes < 59 then 6 else 7) ∧
      4 = (if (handlerAt .readRun 59 58).seconds < 59 then 4 else if (handlerAt .readRun 59 58).minutes < 59 then 6 else 7) := by
  decide

theorem witness_TickWhileStopped :
    (base []).host = .reference ∧ { base [] with tickEnabled := true }.tickEnabled = true ∧
      { base [] with tickEnabled := true }.handler = .idle ∧
      { base [] with tickEnabled := true }.runState = .stopped := by decide

theorem witness_TickRefreshCompletes :
    nextMove (handlerAt (.issue (renderWord 59 59 true)) 59 59) = .handler ∧
      (handlerAt (.issue (renderWord 59 59 true)) 59 59).host = .reference ∧
      (handlerAt (.issue (renderWord 59 59 true)) 59 59).handler = .issue (renderWord 59 59 true) ∧
      (59 : BitVec 6).toNat ≤ 59 ∧ (handlerAt (.issue (renderWord 59 59 true)) 59 59).fBusy = false ∧
      nextMove (handlerAt .wait 0 0) = .handler ∧ (handlerAt .wait 0 0).handler = .wait ∧
      (handlerAt .wait 0 0).fNoted = false ∧ { handlerAt .wait 0 0 with fNoted := true }.host = .reference ∧
      { handlerAt .wait 0 0 with fNoted := true }.handler = .wait ∧
      { handlerAt .wait 0 0 with fNoted := true }.fNoted = true := by decide

theorem witness_TickEntryAndDrop :
    nextMove (base [.tick]) = .tick ∧ (base [.tick]).host = .reference ∧ (base [.tick]).tickEnabled = false ∧ (base [.tick]).handler = .idle ∧
      { base [.tick] with tickEnabled := true }.tickEnabled = true ∧
      { base [.tick] with handler := .wait }.handler ≠ .idle := by decide

theorem witness_HandlerBlocksForeground :
    nextMove { foregroundAt .readKey with handler := .wait } = .foreground ∧
      { foregroundAt .readKey with handler := .wait }.handler ≠ .idle := by decide

theorem witness_BootSequence :
    (foregroundAt .bootInit).host = .reference ∧ (foregroundAt (.wait .boot)).host = .reference ∧
      ({ foregroundAt .bootInit with periphReady := true }.fg = .bootInit ∧
        { foregroundAt .bootInit with periphReady := true }.handler = .idle ∧
        { foregroundAt .bootInit with periphReady := true }.periphReady = true ∧
        { foregroundAt .bootInit with periphReady := true }.fBusy = false) ∧
      ({ foregroundAt (.wait .boot) with fNoted := true }.fg = .wait .boot ∧
        { foregroundAt (.wait .boot) with fNoted := true }.handler = .idle ∧
        { foregroundAt (.wait .boot) with fNoted := true }.fNoted = true) ∧
      (nextMove (foregroundAt (.wait .boot)) = .foreground ∧ (foregroundAt (.wait .boot)).fg = .wait .boot ∧
        (foregroundAt (.wait .boot)).handler = .idle ∧ (foregroundAt (.wait .boot)).fNoted = false) ∧
      nextMove (foregroundAt .bootInit) = .foreground ∧ (foregroundAt .bootInit).fg = .bootInit ∧
      (foregroundAt .bootInit).handler = .idle ∧ (foregroundAt .bootInit).periphReady = false := by decide

theorem witness_ControlLoopTurn :
    (foregroundAt (.issue 0xC000 .scan)).host = .reference ∧ (foregroundAt (.wait .scan)).host = .reference ∧
      (nextMove (foregroundAt (.issue 0xC000 .scan)) = .foreground ∧ (foregroundAt (.issue 0xC000 .scan)).handler = .idle ∧
        (foregroundAt (.issue 0xC000 .scan)).fg = .issue 0xC000 .scan ∧
        (foregroundAt (.issue 0xC000 .scan)).kBusy = false) ∧
      (nextMove (foregroundAt (.wait .scan)) = .foreground ∧ (foregroundAt (.wait .scan)).fg = .wait .scan ∧
        (foregroundAt (.wait .scan)).handler = .idle ∧ (foregroundAt (.wait .scan)).kNoted = false) ∧
      { foregroundAt (.wait .scan) with kNoted := true }.kNoted = true ∧
      { foregroundAt (.wait .scan) with kNoted := true }.fg = .wait .scan ∧
      { foregroundAt (.wait .scan) with kNoted := true }.handler = .idle := by decide

theorem witness_ReferenceHostNeverRefused : HostInv (foregroundAt loopHead) ∧ (foregroundAt loopHead).host = .reference :=
  ⟨⟨⟨by decide, by decide⟩, fun _ _ h => (Foreground.issue.inj h).2 ▸ (Foreground.issue.inj h).1 ▸ rfl, fun _ h => nomatch h⟩,
    rfl⟩

theorem witness_OperatorMovesKeys :
    nextMove (base [.press 3 3]) = .press 3 3 ∧ nextMove (base [.release 0 0]) = .release 0 0 := by decide

theorem witness_PinsChangeOnlyByTheirUnit :
    (∃ t, step (scanAccepted [.tick]) = .next t) ∧ nextMove (scanAccepted [.tick]) ≠ .rst ∧
      nextMove (scanAccepted [.tick]) ≠ .framer ∧ nextMove (scanAccepted [.tick]) ≠ .scannerIdeal ∧
      ∀ v, nextMove (scanAccepted [.tick]) ≠ .scanner v :=
  ⟨⟨_, rfl⟩, by decide, by decide, by decide, fun _ h => nomatch h⟩

/-- START with one event left to perform, and a scan about to return. -/
theorem witness_CompletionPulses :
    FramerInv { startAccepted [.framer] with fq := [.settle] } ∧ ScannerInv { startAccepted [.framer] with fq := [.settle] } ∧
      nextMove { startAccepted [.framer] with fq := [.settle] } ≠ .rst ∧
      (∃ t, step { startAccepted [.framer] with fq := [.settle] } = .next t ∧ t.fDone = true) ∧
      FramerInv (scannerAt .ret 1 2) ∧ ScannerInv (scannerAt .ret 1 2) :=
  ⟨by decide, by decide, by decide, ⟨_, rfl, rfl⟩, by decide, by decide⟩

theorem witness_UnitMovesRunTheUnit :
    (handlerAt .readRun 0 0).host = .reference ∧ ∀ k, k < 4 → ∀ w, (handlerRun k (handlerAt .readRun 0 0)).handler ≠ .issue w := by
  refine ⟨rfl, fun k hk w => ?_⟩
  match k with
  | 0 => exact fun h => nomatch h
  | 1 => exact fun h => nomatch h
  | 2 => exact fun h => nomatch h
  | 3 => exact fun h => nomatch h
  | _ + 4 => omega

theorem witness_CommandsComeThroughThePort :
    fetch (nextMove (offered 0x2000)) (takeMove (offered 0x2000)) = some (.word 0x2000, taken) ∧
      { base [.handler] with host := .program }.host = .program ∧
      nextMove { base [.handler] with host := .program } ∈ [Move.foreground, .handler, .tick] ∧
      (base [.command]).host = .reference ∧ nextMove (base [.command]) = .command ∧
      ∃ t, step (base [.command]) = .next t :=
  ⟨by decide, rfl, by decide, rfl, by decide, ⟨_, rfl⟩⟩

theorem witness_ResetValues : nextMove (startAccepted [.rst]) = .rst := by decide

end Sys2Proof.Tests
end

section
/-! PROOF. The step seen from one unit: what can happen to the framer, to the scanner, and to the choice of host. -/

namespace Sys2Proof.Machine

/-! ## Parts of the state -/

theorem framerPart_eq_iff (s t : State) :
    framerPart t = framerPart s ↔
      t.clk = s.clk ∧ t.dio = s.dio ∧ t.fcmd = s.fcmd ∧ t.shr = s.shr ∧ t.df = s.df ∧ t.fq = s.fq ∧ t.fBusy = s.fBusy ∧
        t.fNoted = s.fNoted ∧ t.ctr = s.ctr ∧ t.mon = s.mon := by
  simp [framerPart]

theorem scannerPart_eq_iff (s t : State) :
    scannerPart t = scannerPart s ↔
      t.row = s.row ∧ t.krow = s.krow ∧ t.kcols = s.kcols ∧ t.kst = s.kst ∧ t.kBusy = s.kBusy ∧ t.kNoted = s.kNoted ∧
        t.key = s.key := by
  simp [scannerPart]

@[simp] theorem takeMove_framerPart (s : State) : framerPart (takeMove s) = framerPart s := by simp [framerPart]

@[simp] theorem takeMove_scannerPart (s : State) : scannerPart (takeMove s) = scannerPart s := by simp [scannerPart]

/-- The host that drives the run is one of the inputs. -/
theorem host_of_inputPart {s t : State} (h : inputPart t = inputPart s) : t.host = s.host :=
  congrArg (fun p => p.2.1) h

/-! ## One framer step -/

/-- The frame of a framer step. -/
theorem framerStep_frame (s : State) : outsideFramer s (framerStep s) := by
  cases hq : s.fq with
  | nil => rw [framerStep_nil hq]; exact ⟨rfl, rfl, rfl, rfl, rfl⟩
  | cons e rest =>
    rw [framerStep_cons hq]
    obtain ⟨hp, _⟩ := performFr_frame e s
    rcases framerAfter_cases rest (performFr e s) with ⟨_, h⟩ | ⟨_, h⟩ <;> rw [h] <;> exact hp

theorem framerStep_scannerPart (s : State) : scannerPart (framerStep s) = scannerPart s := (framerStep_frame s).1

theorem scannerStep_framerPart (v : BitVec 4) (s : State) : framerPart (scannerStep v s) = framerPart s :=
  (scannerStep_frame v s).1

theorem scannerStep_host (v : BitVec 4) (s : State) : (scannerStep v s).host = s.host := by
  obtain ⟨_, _, hinput, _⟩ := scannerStep_frame v s
  exact host_of_inputPart hinput

/-- A step of a framer with an event to perform: the queue loses its head and the counters advance, the command stays, and
the framer stays busy or completes with its pulse. -/
theorem framerStep_registers {s : State} {e : FrEvent} {rest : List FrEvent} (hq : s.fq = e :: rest) :
    (framerStep s).fq = rest ∧ (framerStep s).fcmd = s.fcmd ∧ (framerStep s).df = s.df ∧
      ((framerStep s).ctr, (framerStep s).shr) = counterAdvance s.fcmd s.df s.ctr s.shr ∧
      ((rest ≠ [] ∧ (framerStep s).fBusy = s.fBusy ∧ (framerStep s).fDone = s.fDone) ∨
        (rest = [] ∧ (framerStep s).fBusy = false ∧ (framerStep s).fDone = true ∧ (framerStep s).fNoted = true)) := by
  rw [framerStep_cons hq]
  obtain ⟨_, _, _, hcmd, hshr, hdf, hctr, hbusy, hpulse, _⟩ := performFr_frame e s
  have hdone : (performFr e s).fDone = s.fDone := congrArg Prod.fst hpulse
  rcases framerAfter_cases rest (performFr e s) with ⟨hr, h⟩ | ⟨hr, h⟩ <;> rw [h]
  · simp [hr, hcmd, hshr, hdf, hctr, hbusy, hdone]
  · simp [hr, hcmd, hshr, hdf, hctr]

/-! ## The agents that are no unit -/

/-- The moves of agents other than the framer, the scanner and the reset. -/
def outsideUnits : Move → Bool
  | .framer => false
  | .scanner _ => false
  | .scannerIdeal => false
  | .rst => false
  | _ => true

/-- An agent that is no unit, on its own step, leaves both units and the choice of host. -/
theorem unitMove_outside_units {m : Move} (s : State) (hm : outsideUnits m = true) :
    framerPart (unitMove m s) = framerPart s ∧ scannerPart (unitMove m s) = scannerPart s ∧ (unitMove m s).host = s.host := by
  cases m with
  | framer => cases hm
  | scannerIdeal => cases hm
  | scanner v => cases hm
  | rst => cases hm
  | command => exact ⟨rfl, rfl, rfl⟩
  | press r c => exact ⟨rfl, rfl, rfl⟩
  | release r c => exact ⟨rfl, rfl, rfl⟩
  | peripheralReady => exact ⟨rfl, rfl, rfl⟩
  | tick => rcases takeTick_cases s with ⟨_, h⟩ | ⟨_, h⟩ <;> simp [unitMove, h, framerPart, scannerPart]
  | foreground =>
    simp only [unitMove, foregroundStep]
    repeat' split
    all_goals exact ⟨rfl, rfl, rfl⟩
  | handler =>
    simp only [unitMove, handlerStep]
    repeat' split
    all_goals exact ⟨rfl, rfl, rfl⟩
  | display =>
    simp only [unitMove, displayIdle]
    repeat' split
    all_goals exact ⟨rfl, rfl, rfl⟩

/-- An unlisted byte touches the display side only. -/
theorem passByte_outside_units (c : Code) (s : State) :
    framerPart (passByte c s) = framerPart s ∧ (passByte c s).host = s.host := by
  cases c with
  | data b => rcases storeData_cases b s with ⟨_, h⟩ | ⟨_, h⟩ <;> simp [passByte, h, framerPart]
  | word w => exact ⟨rfl, rfl⟩
  | bus b => exact ⟨rfl, rfl⟩
  | key b => exact ⟨rfl, rfl⟩

/-- Taking a code leaves the choice of host. -/
theorem fetch_host {m : Move} {s t : State} {c : Code} (h : fetch m s = some (c, t)) : t.host = s.host := by
  rcases fetch_some_cases h with ⟨_, h⟩ | ⟨_, h⟩ | ⟨_, h⟩ | ⟨_, h⟩
  · rcases fetchCommand_some h with ⟨_, w, ws, _, _, rfl⟩; rfl
  · rcases fetchForeground_some h with ⟨_, ⟨w, a, _, _, rfl⟩ | ⟨k, _, _, rfl⟩⟩ <;> rfl
  · rcases fetchHandler_some h with ⟨_, w, _, _, rfl⟩; rfl
  · rcases fetchDisplay_some h with ⟨_, ⟨b, bs, _, _, rfl⟩ | ⟨b, bs, fs, _, _, _, rfl⟩⟩ <;> rfl

/-- Taking a code leaves the framer. -/
theorem fetch_framerPart {m : Move} {s t : State} {c : Code} (h : fetch m s = some (c, t)) : framerPart t = framerPart s := by
  obtain ⟨⟨hframer, _⟩, _⟩ := sameBlock_fetch h
  exact hframer

/-- No instruction changes which host drives the run. -/
theorem exec_host {i : Instr} {s t : State} (h : exec i s = .next t) : t.host = s.host := by
  cases hc : i.consumer with
  | framer => obtain ⟨_, ⟨_, rfl⟩ | ⟨w, df, _, _, rfl, _⟩⟩ := exec_framer_cases hc h <;> rfl
  | scanner => obtain ⟨_, ⟨_, rfl⟩ | ⟨_, rfl⟩⟩ := exec_scanner_cases hc h <;> rfl
  | display => rcases exec_display_cases hc h with ⟨k, rfl⟩ | ⟨b, k, _, rfl⟩ <;> rfl
  | host => obtain ⟨r, f, _, rfl⟩ := exec_host_cases hc h; rfl

/-- No agent's own step changes which host drives the run. -/
theorem unitMove_host (m : Move) (s : State) : (unitMove m s).host = s.host := by
  cases m with
  | framer =>
    obtain ⟨_, _, hinput, _⟩ := framerStep_frame s
    exact host_of_inputPart hinput
  | scannerIdeal => exact scannerStep_host _ s
  | scanner v => exact scannerStep_host v s
  | rst => rfl
  | _ => exact (unitMove_outside_units s rfl).2.2

/-- No step changes which host drives the run. -/
theorem step_host {s t : State} (h : step s = .next t) : t.host = s.host := by
  rcases step_next_cases h with ⟨_, rfl⟩ | ⟨c, u, i, hf, _, hx⟩ | ⟨c, u, hf, _, rfl⟩
  · rw [unitMove_host, takeMove_host]
  · rw [exec_host hx]
    rcases presented_cases i (takeMove s) u with ⟨_, hp⟩ | ⟨_, hp⟩ <;> rw [hp]
    · rw [fetch_host hf, takeMove_host]
    · exact takeMove_host s
  · rw [(passByte_outside_units c u).2, fetch_host hf, takeMove_host]

/-! ## A step, by what it does to the framer -/

/-- `w` is the word of the framer command `i`, and `df` is the DigitFrame of `i` if that is a RENDER. -/
structure FramerCommand (i : Instr) (w : Word) (df : Four Byte) : Prop where
  framer : i.consumer = .framer
  wellFormed : i.wellFormed = true
  word : encode i = .word w
  digits : ∀ m sec c, i = .render m sec c → digits m sec c = some df

/-- A framer command waits, or is accepted with its word, its events and its DigitFrame. -/
theorem exec_framer_loads {i : Instr} {s t : State} (hc : i.consumer = .framer) (h : exec i s = .next t) :
    t = s ∨ ∃ w df, s.fBusy = false ∧ FramerCommand i w df ∧ t = loadFramer w (expand i) df s := by
  obtain ⟨hw, ⟨_, rfl⟩ | ⟨w, df, hb, he, rfl, _⟩⟩ := exec_framer_cases hc h
  · exact .inl rfl
  · refine .inr ⟨w, df, hb, ⟨hc, hw, he, ?_⟩, rfl⟩
    rintro m sec c rfl
    have h : execRender m sec c s = .next _ := h
    rcases execRender_cases m sec c s with ⟨_, hx⟩ | ⟨df', _, hd, hx⟩
    · cases hx.symm.trans h
    · have ha : acceptFramer (renderWord m sec c) (expandRefresh df') df' s = _ := hx.symm.trans h
      rcases acceptFramer_cases (renderWord m sec c) (expandRefresh df') df' s with ⟨hb', _⟩ | ⟨_, hl⟩
      · cases hb.symm.trans hb'
      · have hdf : df' = df := congrArg State.df (Host.Outcome.next.inj (hl.symm.trans ha))
        exact hdf ▸ hd

/-- An instruction that is no framer command leaves the framer. -/
theorem exec_framerPart {i : Instr} {s t : State} (hc : i.consumer ≠ .framer) (h : exec i s = .next t) :
    framerPart t = framerPart s := by
  cases hk : i.consumer with
  | framer => exact absurd hk hc
  | scanner => obtain ⟨_, ⟨_, rfl⟩ | ⟨_, rfl⟩⟩ := exec_scanner_cases hk h <;> rfl
  | display => rcases exec_display_cases hk h with ⟨k, rfl⟩ | ⟨b, k, _, rfl⟩ <;> rfl
  | host => obtain ⟨r, f, _, rfl⟩ := exec_host_cases hk h; rfl

/-- A step leaves the framer, is the framer's own, is a reset, or accepts a framer command. -/
theorem step_framer_cases {s t : State} (h : step s = .next t) :
    framerPart t = framerPart s ∨
      (nextMove s = .framer ∧ t = framerStep (takeMove s)) ∨
      (nextMove s = .rst ∧ t = resetMachine (takeMove s)) ∨
      ∃ i w df u, framerPart u = framerPart s ∧ u.fBusy = false ∧ FramerCommand i w df ∧
        t = loadFramer w (expand i) df u := by
  have htake := takeMove_framerPart s
  rcases step_next_cases h with ⟨_, rfl⟩ | ⟨c, u, i, hf, _, hx⟩ | ⟨c, u, hf, _, rfl⟩
  · cases hm : nextMove s with
    | framer => exact .inr (.inl ⟨rfl, rfl⟩)
    | rst => exact .inr (.inr (.inl ⟨rfl, rfl⟩))
    | scannerIdeal => exact .inl ((scannerStep_framerPart _ _).trans htake)
    | scanner v => exact .inl ((scannerStep_framerPart v _).trans htake)
    | _ => exact .inl ((unitMove_outside_units _ rfl).1.trans htake)
  · have hp : framerPart (presented i (takeMove s) u) = framerPart s := by
      rcases presented_cases i (takeMove s) u with ⟨_, hp⟩ | ⟨_, hp⟩ <;> rw [hp]
      · exact (fetch_framerPart hf).trans htake
      · exact htake
    by_cases hc : i.consumer = .framer
    · rcases exec_framer_loads hc hx with rfl | ⟨w, df, hb, hi, rfl⟩
      · exact .inl hp
      · exact .inr (.inr (.inr ⟨i, w, df, _, hp, hb, hi, rfl⟩))
    · exact .inl ((exec_framerPart hc hx).trans hp)
  · exact .inl ((passByte_outside_units c u).1.trans ((fetch_framerPart hf).trans htake))

/-! ## A step, by what it does to the scanner -/

/-- A step leaves the scanner, is the scanner's own, is a reset, or accepts SCAN. -/
theorem step_scanner_cases {s t : State} (h : step s = .next t) :
    scannerPart t = scannerPart s ∨
      ((nextMove s = .scannerIdeal ∨ ∃ v, nextMove s = .scanner v) ∧ ∃ v, t = scannerStep v (takeMove s)) ∨
      (nextMove s = .rst ∧ t = resetMachine (takeMove s)) ∨
      ∃ u, scannerPart u = scannerPart s ∧ u.kBusy = false ∧ t = loadScanner u := by
  rcases step_block_cases h with ⟨_, rfl⟩ | hscan | hrst | ⟨_, hs, _⟩ | ⟨u, _, _, _, ⟨_, hs, _⟩, _, _, _, _, rfl, _⟩ |
    ⟨u, ⟨_, hs, _⟩, hb, rfl⟩
  · exact .inl ((framerStep_scannerPart _).trans (takeMove_scannerPart s))
  · exact .inr (.inl hscan)
  · exact .inr (.inr (.inl hrst))
  · exact .inl hs
  · exact .inl hs
  · exact .inr (.inr (.inr ⟨u, hs, hb, rfl⟩))

end Sys2Proof.Machine
end

section
/-! PROOF. The fields of the framer's command words, and that a framer command is decoded from its word. -/

namespace Sys2Proof

theorem wrbyteWord_fields (b : Byte) :
    opField (wrbyteWord b) = 3 ∧ padField (wrbyteWord b) = 0 ∧ byteField (wrbyteWord b) = b := by
  refine ⟨?_, ?_, ?_⟩
  · ext i hi; simp only [wrbyteWord, opField]; interval_cases i <;> simp
  · ext i hi; simp only [wrbyteWord, padField]; interval_cases i <;> simp
  · ext i hi; simp only [wrbyteWord, byteField]; interval_cases i <;> simp

theorem sendframeWord_fields (b : Byte) :
    opField (sendframeWord b) = 4 ∧ padField (sendframeWord b) = 0 ∧ byteField (sendframeWord b) = b := by
  refine ⟨?_, ?_, ?_⟩
  · ext i hi; simp only [sendframeWord, opField]; interval_cases i <;> simp
  · ext i hi; simp only [sendframeWord, padField]; interval_cases i <;> simp
  · ext i hi; simp only [sendframeWord, byteField]; interval_cases i <;> simp

namespace Machine

/-- The word of a framer command decodes to that command. -/
theorem FramerCommand.decodeWord_eq {i : Instr} {w : Word} {df : Four Byte} (h : FramerCommand i w df) :
    decodeWord w = .ok i := by
  obtain ⟨hc, hw, he, _⟩ := h
  cases i with
  | start => cases he; rfl
  | stop => cases he; rfl
  | wrbyte b =>
    cases he
    obtain ⟨hop, hpad, hbyte⟩ := wrbyteWord_fields b
    simp [decodeWord, hop, hpad, hbyte]
  | sendframe b =>
    cases he
    obtain ⟨hop, hpad, hbyte⟩ := sendframeWord_fields b
    simp [decodeWord, hop, hpad, hbyte]
  | render m sec c =>
    cases he
    exact (decodeWord_renderWord m sec c).trans (if_pos hw)
  | _ => cases hc

/-- The word of a framer command expands to the events of that command. -/
theorem FramerCommand.expandWord_eq {i : Instr} {w : Word} {df : Four Byte} (h : FramerCommand i w df) :
    expandWord w = expand i := by
  simp [expandWord, h.decodeWord_eq, verdictInstr]

end Machine

end Sys2Proof
end

section
/-! PROOF. The counters of 10_state.md R30 select the event lists of the framer's commands: one phase at a time, then a byte,
a frame, and each command. -/

namespace Sys2Proof.Machine

/-- From the counters and `SHR` in `p` the register-level realisation performs exactly `es`. -/
def Selects (w : Word) (df : Four Byte) (p : FrameCounters × Byte) (es : List FrEvent) : Prop :=
  ∀ n, counterEvents w df n p.1 p.2 = es.take n

theorem countersAgree_iff (s : State) : CountersAgree s ↔ Selects s.fcmd s.df (s.ctr, s.shr) s.fq := Iff.rfl

/-! ## One event -/

theorem Selects.cons {w : Word} {df : Four Byte} {p : FrameCounters × Byte} {e : FrEvent} {es : List FrEvent}
    (he : counterEvent p.1 p.2 = some e) (h : Selects w df (counterAdvance w df p.1 p.2) es) : Selects w df p (e :: es)
  | 0 => rfl
  | n + 1 => by simp [counterEvents, he, h n]

theorem Selects.tail {w : Word} {df : Four Byte} {p : FrameCounters × Byte} {e : FrEvent} {es : List FrEvent}
    (h : Selects w df p (e :: es)) : Selects w df (counterAdvance w df p.1 p.2) es := by
  intro n
  have hn := h (n + 1)
  rw [counterEvents] at hn
  split at hn
  · cases hn
  · exact (List.cons.inj hn).2

/-- Idle counters select nothing. -/
theorem selects_nil {w : Word} {df : Four Byte} {p : FrameCounters × Byte} (hp : p.1.fph = .idle) : Selects w df p []
  | 0 => rfl
  | n + 1 => by simp [counterEvents, counterEvent, hp, phaseWrites]

/-! ## One phase -/

/-- The events of a phase: its pin writes, each with its settle wait. -/
def phaseEvents (bit : Bool) (p : Phase) : List FrEvent := (phaseWrites bit p).flatMap fun x => settled x.1 x.2

theorem length_phaseEvents (bit : Bool) {p : Phase} (hp : p ≠ .idle) : (phaseEvents bit p).length = lastSub p + 1 := by
  cases p with
  | idle => exact absurd rfl hp
  | _ => rfl

theorem lastSub_lt (p : Phase) : lastSub p < 8 := by cases p <;> decide

/-- Pin writes with their settle waits: the writes at the even places, the waits at the odd ones. -/
theorem getElem?_settled (ws : List (Line × Bool)) (k : Nat) :
    (ws.flatMap fun x => settled x.1 x.2)[k]? =
      ws[k / 2]?.map fun x => if k % 2 = 1 then .settle else .write x.1 x.2 := by
  induction ws generalizing k with
  | nil => simp
  | cons x ws ih =>
    match k with
    | 0 => rfl
    | 1 => rfl
    | k + 2 => simpa [settled] using ih k

/-- `FSUB` is the place of the selected event in its phase. -/
theorem counterEvent_eq (c : FrameCounters) (shr : Byte) :
    counterEvent c shr = (phaseEvents (shr.getLsbD c.fbit.toNat) c.fph)[c.fsub.toNat]? := by
  have hodd : c.fsub.getLsbD 0 = decide (c.fsub.toNat % 2 = 1) := Nat.testBit_zero _
  rw [phaseEvents, getElem?_settled, counterEvent, hodd]
  cases (phaseWrites (shr.getLsbD c.fbit.toNat) c.fph)[c.fsub.toNat / 2]? <;> simp

/-- From place `k` of a phase the counters run through the rest of its events and then go on as `counterNextPhase` says. -/
theorem Selects.phaseFrom {w : Word} {df : Four Byte} {ph : Phase} {fbyte fbit : BitVec 3} {ffr : BitVec 2} {shr : Byte}
    {es : List FrEvent} (hp : ph ≠ .idle)
    (h : Selects w df (counterNextPhase w df ⟨ph, fbyte, fbit, BitVec.ofNat 3 (lastSub ph), ffr⟩ shr) es) (d : Nat)
    (k : BitVec 3) (hk : k.toNat + d = lastSub ph) :
    Selects w df (⟨ph, fbyte, fbit, k, ffr⟩, shr) ((phaseEvents (shr.getLsbD fbit.toNat) ph).drop k.toNat ++ es) := by
  have hlen := length_phaseEvents (shr.getLsbD fbit.toNat) hp
  have hlt : k.toNat < (phaseEvents (shr.getLsbD fbit.toNat) ph).length := by omega
  have hlast := lastSub_lt ph
  rw [List.drop_eq_getElem_cons hlt, List.cons_append]
  refine .cons ((counterEvent_eq _ _).trans (List.getElem?_eq_getElem hlt)) ?_
  cases d with
  | zero =>
    have hend : k = BitVec.ofNat 3 (lastSub ph) := BitVec.eq_of_toNat_eq (by simp; omega)
    have hdone : ¬k.toNat < lastSub ph := by omega
    rw [List.drop_of_length_le (by omega), List.nil_append]
    simp only [counterAdvance, if_neg hdone]
    exact hend ▸ h
  | succ d =>
    have hsucc : (k + 1).toNat = k.toNat + 1 := by
      have h1 : (1 : BitVec 3).toNat = 1 := rfl
      rw [BitVec.toNat_add, h1]
      omega
    have hmore : k.toNat < lastSub ph := by omega
    simp only [counterAdvance, if_pos hmore]
    rw [← hsucc]
    exact .phaseFrom hp h d (k + 1) (by omega)

/-- The counters run through the events of a phase and then go on as `counterNextPhase` says. -/
theorem Selects.phase {w : Word} {df : Four Byte} {ph : Phase} {fbyte fbit : BitVec 3} {ffr : BitVec 2} {shr : Byte}
    {es : List FrEvent} (hp : ph ≠ .idle)
    (h : Selects w df (counterNextPhase w df ⟨ph, fbyte, fbit, BitVec.ofNat 3 (lastSub ph), ffr⟩ shr) es) :
    Selects w df (⟨ph, fbyte, fbit, 0, ffr⟩, shr) (phaseEvents (shr.getLsbD fbit.toNat) ph ++ es) :=
  .phaseFrom hp h (lastSub ph) 0 (Nat.zero_add _)

/-! ## One byte -/

/-- A bit slot that is not the last of its byte. -/
theorem Selects.bit {w : Word} {df : Four Byte} {fbyte : BitVec 3} {ffr : BitVec 2} {b : Byte} {es : List FrEvent}
    (k : BitVec 3) (hk : k ≠ 7) (h : Selects w df (⟨.byte, fbyte, k + 1, 0, ffr⟩, b) es) :
    Selects w df (⟨.byte, fbyte, k, 0, ffr⟩, b) (bitSlot (b.getLsbD k.toNat) ++ es) :=
  .phase (ph := .byte) (by decide) (by simpa only [counterNextPhase, if_neg hk] using h)

/-- The eight bits of a byte in `SHR`, its acknowledge slot, and then what follows the acknowledge slot. -/
theorem Selects.wrbyte {w : Word} {df : Four Byte} {fbyte : BitVec 3} {ffr : BitVec 2} {b : Byte} {es : List FrEvent}
    (h : Selects w df (counterNextPhase w df ⟨.ack, fbyte, 0, 3, ffr⟩ b) es) :
    Selects w df (⟨.byte, fbyte, 0, 0, ffr⟩, b) (expandWrbyte b ++ es) := by
  have hack : Selects w df (⟨.ack, fbyte, 0, 0, ffr⟩, b) (ackSlot ++ es) := .phase (ph := .ack) (by decide) h
  have hlast : Selects w df (⟨.byte, fbyte, 7, 0, ffr⟩, b) (bitSlot (b.getLsbD 7) ++ (ackSlot ++ es)) :=
    .phase (ph := .byte) (by decide) hack
  simp only [expandWrbyte, List.append_assoc]
  exact .bit 0 (by decide) <| .bit 1 (by decide) <| .bit 2 (by decide) <| .bit 3 (by decide) <| .bit 4 (by decide) <|
    .bit 5 (by decide) <| .bit 6 (by decide) hlast

/-! ## One frame -/

/-- From the entry of byte `n` of a frame, the bytes still to send and then the stop condition. -/
theorem Selects.bytes {w : Word} {df : Four Byte} {ffr : BitVec 2} {es : List FrEvent} (hop : opField w ≠ 3)
    (hlen : (frameBytes w df ffr).length < 8)
    (hstop : ∀ fbyte shr, Selects w df (⟨.stop, fbyte, 0, 0, ffr⟩, shr) es) (bs : List Byte) (n : BitVec 3)
    (hbs : (frameBytes w df ffr).drop n.toNat = bs) (c : FrameCounters) (hc : c.ffr = ffr) (shr : Byte) :
    Selects w df (enterByte (frameBytes w df ffr) n c shr) (expandBytes bs ++ es) := by
  induction bs generalizing n c shr with
  | nil =>
    have hnone : (frameBytes w df ffr)[n.toNat]? = none := List.getElem?_eq_none (List.drop_eq_nil_iff.mp hbs)
    simp only [enterByte, hnone]
    exact hc ▸ hstop c.fbyte shr
  | cons b bs ih =>
    have hb : (frameBytes w df ffr)[n.toNat]? = some b := by
      rw [← List.head?_drop, hbs, List.head?_cons]
    have hn : n.toNat < (frameBytes w df ffr).length := (List.getElem?_eq_some_iff.mp hb).1
    have hsucc : (n + 1).toNat = n.toNat + 1 := by
      have h1 : (1 : BitVec 3).toNat = 1 := rfl
      rw [BitVec.toNat_add, h1]
      omega
    have hdrop : (frameBytes w df ffr).drop (n + 1).toNat = bs := by
      rw [hsucc, ← List.tail_drop, hbs, List.tail_cons]
    simp only [enterByte, hb, hc, expandBytes, List.append_assoc]
    refine .wrbyte ?_
    simpa only [counterNextPhase, if_neg hop] using ih (n + 1) hdrop ⟨.ack, n, 0, 3, ffr⟩ rfl b

/-- A whole frame: start condition, bytes, stop condition, and then what follows the stop condition. -/
theorem Selects.frame {w : Word} {df : Four Byte} {ffr : BitVec 2} {shr : Byte} {es : List FrEvent} (hstart : opField w ≠ 1)
    (hop : opField w ≠ 3) (hlen : (frameBytes w df ffr).length < 8)
    (hnext : ∀ fbyte shr, Selects w df (counterNextPhase w df ⟨.stop, fbyte, 0, 7, ffr⟩ shr) es) :
    Selects w df (⟨.start, 0, 0, 0, ffr⟩, shr) (frame (frameBytes w df ffr) ++ es) := by
  have hstop : ∀ fbyte shr, Selects w df (⟨.stop, fbyte, 0, 0, ffr⟩, shr) (expandStop ++ es) :=
    fun fbyte shr => .phase (ph := .stop) (by decide) (hnext fbyte shr)
  have hbytes := Selects.bytes hop hlen hstop _ 0 rfl ⟨.start, 0, 0, 5, ffr⟩ rfl shr
  have hphase : Selects w df (⟨.start, 0, 0, 0, ffr⟩, shr)
      (expandStart ++ (expandBytes (frameBytes w df ffr) ++ (expandStop ++ es))) :=
    .phase (ph := .start) (by decide) (by rw [counterNextPhase, if_neg hstart]; exact hbytes)
  simpa only [Machine.frame, List.append_assoc] using hphase

/-! ## The commands -/

theorem selects_start (df : Four Byte) (shr : Byte) : Selects startWord df (counterStart startWord df shr) expandStart :=
  .phase (by decide) (selects_nil rfl)

theorem selects_stop (df : Four Byte) (shr : Byte) : Selects stopWord df (counterStart stopWord df shr) expandStop :=
  .phase (by decide) (selects_nil rfl)

theorem selects_wrbyte (b : Byte) (df : Four Byte) (shr : Byte) :
    Selects (wrbyteWord b) df (counterStart (wrbyteWord b) df shr) (expandWrbyte b) := by
  obtain ⟨hop, _, hbyte⟩ := wrbyteWord_fields b
  have hentry : counterStart (wrbyteWord b) df shr = (⟨.byte, 0, 0, 0, 0⟩, b) := by
    simp [counterStart, frameBytes, hop, hbyte, enterByte, FrameCounters.zero]
  have hend : (counterNextPhase (wrbyteWord b) df ⟨.ack, 0, 0, 3, 0⟩ b).1.fph = .idle := by
    simp [counterNextPhase, hop, FrameCounters.zero]
  rw [hentry, ← List.append_nil (expandWrbyte b)]
  exact .wrbyte (selects_nil hend)

theorem selects_sendframe (b : Byte) (df : Four Byte) (shr : Byte) :
    Selects (sendframeWord b) df (counterStart (sendframeWord b) df shr) (expandSendframe b) := by
  obtain ⟨hop, _, hbyte⟩ := sendframeWord_fields b
  have hentry : counterStart (sendframeWord b) df shr = (⟨.start, 0, 0, 0, 0⟩, shr) := by
    simp [counterStart, hop, FrameCounters.zero]
  have hbytes : frameBytes (sendframeWord b) df 0 = [b] := by simp [frameBytes, hop, hbyte]
  have hend : ∀ fbyte shr, (counterNextPhase (sendframeWord b) df ⟨.stop, fbyte, 0, 7, 0⟩ shr).1.fph = .idle := by
    simp [counterNextPhase, hop, FrameCounters.zero]
  have hframe := Selects.frame (w := sendframeWord b) (df := df) (ffr := 0) (shr := shr) (by simp [hop]) (by simp [hop])
    (by rw [hbytes]; simp) (fun fbyte shr => selects_nil (hend fbyte shr))
  rw [hbytes] at hframe
  rw [hentry]
  simpa [expandSendframe, frame, expandBytes] using hframe

theorem selects_refresh {w : Word} (hop : opField w = 5) (df : Four Byte) (shr : Byte) :
    Selects w df (counterStart w df shr) (expandRefresh df) := by
  have hentry : counterStart w df shr = (⟨.start, 0, 0, 0, 0⟩, shr) := by simp [counterStart, hop, FrameCounters.zero]
  have hbytes : ∀ ffr, frameBytes w df ffr = (refreshFrames df).getD ffr.toNat [] := by simp [frameBytes, hop]
  have hlen : ∀ ffr, (frameBytes w df ffr).length < 8 := by
    intro ffr
    rw [hbytes]
    have h4 := ffr.isLt
    interval_cases ffr.toNat <;> simp [refreshFrames, fourList]
  have hmore : ∀ (ffr : BitVec 2) fbyte shr, ffr.toNat < 2 →
      counterNextPhase w df ⟨.stop, fbyte, 0, 7, ffr⟩ shr = (⟨.start, 0, 0, 0, ffr + 1⟩, shr) := by
    intro ffr fbyte shr hffr
    simp [counterNextPhase, hop, hffr, FrameCounters.zero]
  have hend : ∀ fbyte shr, (counterNextPhase w df ⟨.stop, fbyte, 0, 7, 2⟩ shr).1.fph = .idle := by
    simp [counterNextPhase, FrameCounters.zero]
  have hframe : ∀ (ffr : BitVec 2) (shr : Byte) (es : List FrEvent),
      (∀ fbyte shr, Selects w df (counterNextPhase w df ⟨.stop, fbyte, 0, 7, ffr⟩ shr) es) →
      Selects w df (⟨.start, 0, 0, 0, ffr⟩, shr) (frame (frameBytes w df ffr) ++ es) :=
    fun ffr shr es => Selects.frame (by simp [hop]) (by simp [hop]) (hlen ffr)
  have hthird : ∀ shr, Selects w df (⟨.start, 0, 0, 0, 2⟩, shr) (frame (frameBytes w df 2) ++ []) :=
    fun shr => hframe 2 shr [] fun fbyte shr => selects_nil (hend fbyte shr)
  have hsecond : ∀ shr, Selects w df (⟨.start, 0, 0, 0, 1⟩, shr)
      (frame (frameBytes w df 1) ++ (frame (frameBytes w df 2) ++ [])) :=
    fun shr => hframe 1 shr _ fun fbyte shr => hmore 1 fbyte shr (by decide) ▸ hthird shr
  have hfirst := hframe 0 shr _ fun fbyte shr => hmore 0 fbyte shr (by decide) ▸ hsecond shr
  rw [hbytes 0, hbytes 1, hbytes 2] at hfirst
  rw [hentry]
  exact hfirst

/-- At the acceptance of a framer command the counters select the events of its expansion. -/
theorem FramerCommand.selects {i : Instr} {w : Word} {df : Four Byte} (h : FramerCommand i w df) (shr : Byte) :
    Selects w df (counterStart w df shr) (expand i) := by
  obtain ⟨hc, _, he, hd⟩ := h
  cases i with
  | start => cases he; exact selects_start df shr
  | stop => cases he; exact selects_stop df shr
  | wrbyte b => cases he; exact selects_wrbyte b df shr
  | sendframe b => cases he; exact selects_sendframe b df shr
  | render m sec c =>
    cases he
    have hx : expand (.render m sec c) = expandRefresh df := by simp [expand, hd m sec c rfl]
    rw [hx]
    exact selects_refresh (renderWord_fields m sec c).1 df shr
  | _ => cases hc

end Sys2Proof.Machine
end

section
/-! PROOF. What every step keeps of the framer: F_BUSY with FQ (10_state.md R29), and the counters with FQ (R30). -/

namespace Sys2Proof.Machine

/-! ## The framer invariant -/

theorem framerInv_congr {s t : State} (h : framerPart t = framerPart s) (hs : FramerInv s) : FramerInv t := by
  obtain ⟨_, _, hcmd, _, _, hfq, hbusy, _⟩ := (framerPart_eq_iff s t).mp h
  simpa only [FramerInv, hcmd, hfq, hbusy] using hs

/-- A framer with an empty queue is as an idle one is, whatever FCMD holds. -/
theorem framerInv_of_idle {s : State} (hb : s.fBusy = false) (hq : s.fq = []) : FramerInv s := by
  simp [FramerInv, hb, hq]

theorem framerStep_framerInv {s : State} (hs : FramerInv s) : FramerInv (framerStep s) := by
  cases hq : s.fq with
  | nil => rw [framerStep_nil hq]; exact hs
  | cons e rest =>
    obtain ⟨hbusy, hsuffix⟩ := hs
    have hb : s.fBusy = true := hbusy.mpr (by simp [hq])
    obtain ⟨hfq, hcmd, _, _, ⟨hr, hb', _⟩ | ⟨hr, hb', _⟩⟩ := framerStep_registers hq
    · have hrest : rest <:+ expandWord s.fcmd := (List.suffix_cons e rest).trans (hq ▸ hsuffix hb)
      exact ⟨by simp [hb', hb, hfq, hr], fun _ => hfq ▸ hcmd ▸ hrest⟩
    · exact framerInv_of_idle hb' (hfq.trans hr)

theorem loadFramer_framerInv {i : Instr} {w : Word} {df : Four Byte} (h : FramerCommand i w df) (s : State) :
    FramerInv (loadFramer w (expand i) df s) := by
  refine ⟨?_, fun _ => ?_⟩
  · simp [expand_ne_nil h.wellFormed h.framer]
  · simpa using h.expandWord_eq ▸ List.suffix_refl (expandWord w)

theorem step_framerInv {s t : State} (hs : FramerInv s) (h : step s = .next t) : FramerInv t := by
  rcases step_framer_cases h with hp | ⟨_, rfl⟩ | ⟨_, rfl⟩ | ⟨i, w, df, u, _, _, hi, rfl⟩
  · exact framerInv_congr hp hs
  · exact framerStep_framerInv (framerInv_congr (takeMove_framerPart s) hs)
  · exact framerInv_of_idle rfl rfl
  · exact loadFramer_framerInv hi u

/-! ## The counter realisation -/

theorem countersAgree_congr {s t : State} (h : framerPart t = framerPart s) (hs : CountersAgree s) : CountersAgree t := by
  obtain ⟨_, _, hcmd, hshr, hdf, hfq, _, _, hctr, _⟩ := (framerPart_eq_iff s t).mp h
  simpa only [CountersAgree, hcmd, hshr, hdf, hfq, hctr] using hs

theorem framerStep_countersAgree {s : State} (hs : CountersAgree s) : CountersAgree (framerStep s) := by
  cases hq : s.fq with
  | nil => rw [framerStep_nil hq]; exact hs
  | cons e rest =>
    obtain ⟨hfq, hcmd, hdf, hadvance, _⟩ := framerStep_registers hq
    rw [countersAgree_iff] at hs ⊢
    rw [hfq, hcmd, hdf, hadvance]
    exact (hq ▸ hs).tail

theorem step_countersAgree {s t : State} (hs : CountersAgree s) (h : step s = .next t) : CountersAgree t := by
  rcases step_framer_cases h with hp | ⟨_, rfl⟩ | ⟨_, rfl⟩ | ⟨i, w, df, u, _, _, hi, rfl⟩
  · exact countersAgree_congr hp hs
  · exact framerStep_countersAgree (countersAgree_congr (takeMove_framerPart s) hs)
  · exact (countersAgree_iff _).mpr (selects_nil rfl)
  · exact (countersAgree_iff _).mpr (hi.selects u.shr)

end Sys2Proof.Machine

open Sys2Proof.Machine

/-- Settles O18: by what a step can do to the framer; an event takes the head off a suffix, an acceptance loads the whole
expansion of its word. -/
theorem framerInvariantKept : Obligations.FramerInvariantKept := fun _ _ => step_framerInv

/-- Settles O19: a framer step is one step of the counters; at an acceptance they select the whole expansion, phase by
phase. -/
theorem counterRealisationKept : Obligations.CounterRealisationKept := fun _ _ => step_countersAgree
end

section
/-! PROOF. What every step keeps of the scanner: K_BUSY, ROW and KEY (10_state.md R34, R35, R44). -/

namespace Sys2Proof.Machine

theorem keymap_mem_keyCodes : ∀ r c : BitVec 2, keymap r c ∈ keyCodes := by decide

/-- A scan returns one of the 17 codes (42_keypad_scanner.md R167). -/
theorem scanResult_mem_keyCodes (r : BitVec 2) (cols : BitVec 4) : scanResult r cols ∈ keyCodes := by
  unfold scanResult
  split
  · decide
  · exact keymap_mem_keyCodes r _

/-- In every position of the scanner at most one row is active. -/
theorem scannerRow_zero_or_onehot (s : State) : scannerRow s = 0 ∨ ∃ r, scannerRow s = onehot r := by
  cases hk : s.kst <;> simp only [scannerRow, hk]
  case drive =>
    split
    · exact .inl rfl
    · exact .inr ⟨_, rfl⟩
  case idle | debounce | ret => exact .inl trivial
  case sample | releaseHit | releaseMiss => exact .inr ⟨_, rfl⟩

theorem scannerInv_congr {s t : State} (h : scannerPart t = scannerPart s) (hs : ScannerInv s) : ScannerInv t := by
  obtain ⟨hrow, hkrow, _, hkst, hbusy, _, hkey⟩ := (scannerPart_eq_iff s t).mp h
  simpa only [ScannerInv, scannerRow, hrow, hkrow, hkst, hbusy, hkey] using hs

theorem succ_row_ne_zero : ∀ r : BitVec 2, r ≠ 3 → r + 1 ≠ 0 := by decide

/-! ## What a sample leaves -/

@[simp] theorem afterSample_row (v : BitVec 4) (s : State) : (afterSample v s).row = s.row := by
  unfold afterSample; repeat' split
  all_goals rfl
@[simp] theorem afterSample_kBusy (v : BitVec 4) (s : State) : (afterSample v s).kBusy = s.kBusy := by
  unfold afterSample; repeat' split
  all_goals rfl
@[simp] theorem afterSample_key (v : BitVec 4) (s : State) : (afterSample v s).key = s.key := by
  unfold afterSample; repeat' split
  all_goals rfl
@[simp] theorem afterSample_fDone (v : BitVec 4) (s : State) : (afterSample v s).fDone = s.fDone := by
  unfold afterSample; repeat' split
  all_goals rfl
@[simp] theorem afterSample_kDone (v : BitVec 4) (s : State) : (afterSample v s).kDone = s.kDone := by
  unfold afterSample; repeat' split
  all_goals rfl

/-! ## The scanner invariant -/

/-- A sample goes on to the release of the row that is active, or to the drive of the row after it. -/
theorem afterSample_scannerInv (v : BitVec 4) {s : State} (hbusy : s.kBusy = true) (hrow : s.row = onehot s.krow)
    (hkey : s.key ∈ keyCodes) : ScannerInv (afterSample v s) := by
  rcases afterSample_cases v s with ⟨_, h⟩ | ⟨_, _, h⟩ | ⟨_, hlast, h⟩ <;> rw [h]
  · exact ⟨by simp [hbusy], hrow, hkey⟩
  · exact ⟨by simp [hbusy], hrow, hkey⟩
  · refine ⟨by simp [hbusy], hrow.trans ?_, hkey⟩
    simp only [scannerRow, if_neg (succ_row_ne_zero _ hlast), BitVec.add_sub_cancel]

/-- Each position leaves ROW as the next position has it. -/
theorem scannerStep_scannerInv (v : BitVec 4) {s : State} (hs : ScannerInv s) : ScannerInv (scannerStep v s) := by
  obtain ⟨hbusy, hrow, hkey⟩ := hs
  rcases scannerStep_cases v s with ⟨hk, h⟩ | ⟨hk, h⟩ | ⟨hk, h⟩ | ⟨hk, h⟩ | ⟨hk, h⟩ | ⟨hk, h⟩ | ⟨hk, h⟩ <;> rw [h]
  · exact ⟨hbusy, hrow, hkey⟩
  · exact ⟨by simpa [hk] using hbusy, rfl, hkey⟩
  · exact afterSample_scannerInv v (hbusy.mpr (by simp [hk])) (by simpa [scannerRow, hk] using hrow) hkey
  · exact ⟨by simpa [hk] using hbusy, rfl, hkey⟩
  · exact ⟨by simpa [hk] using hbusy, by simpa [scannerRow, hk] using hrow, hkey⟩
  · exact ⟨by simpa [hk] using hbusy, rfl, hkey⟩
  · exact ⟨by simp, by simpa [scannerRow, hk] using hrow, scanResult_mem_keyCodes _ _⟩

/-- An idle scanner drives no row, and is about to drive row 0 once SCAN is accepted. -/
theorem loadScanner_scannerInv {s : State} (hs : ScannerInv s) (hb : s.kBusy = false) : ScannerInv (loadScanner s) := by
  obtain ⟨hbusy, hrow, hkey⟩ := hs
  have hk : s.kst = .idle := by simpa [hb] using hbusy
  simp only [scannerRow, hk] at hrow
  exact ⟨by simp, by simpa [scannerRow] using hrow, hkey⟩

theorem reset_scannerInv (s : State) : ScannerInv (resetMachine s) :=
  scannerInv_congr (s := State.reset) rfl (by decide)

theorem step_scannerInv {s t : State} (hs : ScannerInv s) (h : step s = .next t) : ScannerInv t := by
  rcases step_scanner_cases h with hp | ⟨_, v, rfl⟩ | ⟨_, rfl⟩ | ⟨u, hu, hb, rfl⟩
  · exact scannerInv_congr hp hs
  · exact scannerStep_scannerInv v (scannerInv_congr (takeMove_scannerPart s) hs)
  · exact reset_scannerInv _
  · exact loadScanner_scannerInv (scannerInv_congr hu hs) hb

/-! ## KEY -/

/-- Only the return writes KEY. -/
theorem scannerStep_key (v : BitVec 4) {s : State} (hk : s.kst ≠ .ret) : (scannerStep v s).key = s.key := by
  rcases scannerStep_cases v s with ⟨_, h⟩ | ⟨_, h⟩ | ⟨_, h⟩ | ⟨_, h⟩ | ⟨_, h⟩ | ⟨_, h⟩ | ⟨hret, _⟩
  case inr.inr.inr.inr.inr.inr => exact absurd hret hk
  all_goals simp [h]

theorem step_key {s t : State} (h : step s = .next t) (hr : nextMove s ≠ .rst)
    (hk : s.kst ≠ .ret ∨ (nextMove s ≠ .scannerIdeal ∧ ∀ v, nextMove s ≠ .scanner v)) : t.key = s.key := by
  have hpart : ∀ {u : State}, scannerPart u = scannerPart s → u.key = s.key := fun {u} hu => by
    obtain ⟨_, _, _, _, _, _, hkey⟩ := (scannerPart_eq_iff s u).mp hu
    exact hkey
  rcases step_scanner_cases h with hp | ⟨hm, v, rfl⟩ | ⟨hm, _⟩ | ⟨u, hu, _, rfl⟩
  · exact hpart hp
  · have hret : s.kst ≠ .ret := by
      rcases hk with hk | ⟨hideal, hfree⟩
      · exact hk
      · rcases hm with hm | ⟨v, hm⟩
        · exact absurd hm hideal
        · exact absurd hm (hfree v)
    exact (scannerStep_key v (by simpa using hret)).trans (takeMove_key s)
  · exact absurd hm hr
  · rw [loadScanner_key, hpart hu]

end Sys2Proof.Machine

open Sys2Proof.Machine

/-- Settles O41: by what a step can do to the scanner and, for its own step, by position. -/
theorem scannerInvariantKept : Obligations.ScannerInvariantKept := by
  refine ⟨fun _ _ => step_scannerInv, fun s ⟨_, hrow, _⟩ => ?_⟩
  rw [hrow]
  exact scannerRow_zero_or_onehot s

/-- Settles O42: no other step than the scanner's writes KEY, and of the scanner's only the return. -/
theorem keyKeptUntilReturn : Obligations.KeyKeptUntilReturn := fun _ _ => step_key
end

section
/-! PROOF. Who changes the pins (10_state.md R21, R23) and when the completion pulses are up (R37). -/

namespace Sys2Proof.Machine

/-! ## Pins -/

theorem levels_of_framerPart {s t : State} (h : framerPart t = framerPart s) : levels t = levels s := by
  obtain ⟨hclk, hdio, _⟩ := (framerPart_eq_iff s t).mp h
  simp [levels, hclk, hdio]

/-- A step that is neither the framer's own nor a reset leaves the bus lines. -/
theorem step_levels {s t : State} (h : step s = .next t) (hr : nextMove s ≠ .rst) (hf : nextMove s ≠ .framer) :
    levels t = levels s := by
  rcases step_framer_cases h with hp | ⟨hm, _⟩ | ⟨hm, _⟩ | ⟨i, w, df, u, hu, _, _, rfl⟩
  · exact levels_of_framerPart hp
  · exact absurd hm hf
  · exact absurd hm hr
  · exact (levels_of_framerPart hu : levels u = levels s)

/-- A step that is neither the scanner's own nor a reset leaves the rows. -/
theorem step_row {s t : State} (h : step s = .next t) (hr : nextMove s ≠ .rst) (hi : nextMove s ≠ .scannerIdeal)
    (hs : ∀ v, nextMove s ≠ .scanner v) : t.row = s.row := by
  rcases step_scanner_cases h with hp | ⟨hm | ⟨v, hm⟩, _⟩ | ⟨hm, _⟩ | ⟨u, hu, _, rfl⟩
  · exact ((scannerPart_eq_iff s t).mp hp).1
  · exact absurd hm hi
  · exact absurd hm (hs v)
  · exact absurd hm hr
  · exact ((scannerPart_eq_iff s u).mp hu).1

/-! ## The framer's pulse -/

/-- A framer step gives the pulse exactly when F_BUSY falls. -/
theorem framerStep_completes {s : State} (hs : FramerInv s) (hd : s.fDone = false) :
    ((framerStep s).fDone = true ↔ s.fBusy = true ∧ (framerStep s).fBusy = false) ∧
      ((framerStep s).fDone = true → (framerStep s).fNoted = true) := by
  cases hq : s.fq with
  | nil => rw [framerStep_nil hq]; simp [hd]
  | cons e rest =>
    have hb : s.fBusy = true := hs.1.mpr (by simp [hq])
    obtain ⟨_, _, _, _, ⟨_, hb', hd'⟩ | ⟨_, hb', hd', hn⟩⟩ := framerStep_registers hq
    · simp [hd', hb', hb, hd]
    · simp [hd', hb', hb, hn]

theorem scannerStep_fDone (v : BitVec 4) (s : State) : (scannerStep v s).fDone = s.fDone := by
  rcases scannerStep_cases v s with ⟨_, h⟩ | ⟨_, h⟩ | ⟨_, h⟩ | ⟨_, h⟩ | ⟨_, h⟩ | ⟨_, h⟩ | ⟨_, h⟩ <;> simp [h]

/-- The pulse of the framer and the fall of F_BUSY are each the framer's own step. -/
theorem framerStep_of_fDone {s t : State} (h : step s = .next t) (hd : t.fDone = true) : t = framerStep (takeMove s) := by
  rcases step_pulses_cases h with ⟨_, ht⟩ | ⟨_, v, rfl⟩ | hp
  · exact ht
  · simp [scannerStep_fDone] at hd
  · have hlow : t.fDone = false := congrArg Prod.fst hp
    simp [hlow] at hd

theorem framerStep_of_fBusy_falls {s t : State} (h : step s = .next t) (hr : nextMove s ≠ .rst) (hb : s.fBusy = true)
    (hb' : t.fBusy = false) : t = framerStep (takeMove s) := by
  rcases step_framer_cases h with hp | ⟨_, ht⟩ | ⟨hm, _⟩ | ⟨i, w, df, u, _, _, _, rfl⟩
  · obtain ⟨_, _, _, _, _, _, hbusy, _⟩ := (framerPart_eq_iff s t).mp hp
    simp [hbusy, hb] at hb'
  · exact ht
  · exact absurd hm hr
  · cases hb'

theorem step_fDone {s t : State} (hs : FramerInv s) (hr : nextMove s ≠ .rst) (h : step s = .next t) :
    (t.fDone = true ↔ s.fBusy = true ∧ t.fBusy = false) ∧ (t.fDone = true → t.fNoted = true) := by
  have hown := framerStep_completes (framerInv_congr (takeMove_framerPart s) hs) (takeMove_fDone s)
  rw [takeMove_fBusy] at hown
  refine ⟨⟨fun hd => ?_, fun ⟨hb, hb'⟩ => ?_⟩, fun hd => ?_⟩
  · obtain rfl := framerStep_of_fDone h hd
    exact hown.1.mp hd
  · obtain rfl := framerStep_of_fBusy_falls h hr hb hb'
    exact hown.1.mpr ⟨hb, hb'⟩
  · obtain rfl := framerStep_of_fDone h hd
    exact hown.2 hd

/-! ## The scanner's pulse -/

/-- A scanner step gives the pulse exactly when K_BUSY falls. -/
theorem scannerStep_completes (v : BitVec 4) {s : State} (hs : ScannerInv s) (hd : s.kDone = false) :
    ((scannerStep v s).kDone = true ↔ s.kBusy = true ∧ (scannerStep v s).kBusy = false) ∧
      ((scannerStep v s).kDone = true → (scannerStep v s).kNoted = true) := by
  rcases scannerStep_cases v s with ⟨_, h⟩ | ⟨_, h⟩ | ⟨_, h⟩ | ⟨_, h⟩ | ⟨_, h⟩ | ⟨_, h⟩ | ⟨hk, h⟩
  case inr.inr.inr.inr.inr.inr =>
    have hb : s.kBusy = true := hs.1.mpr (by simp [hk])
    simp [h, hb]
  all_goals simp [h, hd]

theorem framerStep_kDone (s : State) : (framerStep s).kDone = s.kDone := by
  cases hq : s.fq with
  | nil => rw [framerStep_nil hq]
  | cons e rest =>
    obtain ⟨_, _, _, _, _, _, _, _, hpulse, _⟩ := performFr_frame e s
    have hk : (performFr e s).kDone = s.kDone := congrArg Prod.snd hpulse
    rw [framerStep_cons hq]
    rcases framerAfter_cases rest (performFr e s) with ⟨_, h⟩ | ⟨_, h⟩ <;> rw [h] <;> exact hk

/-- The pulse of the scanner and the fall of K_BUSY are each the scanner's own step. -/
theorem scannerStep_of_kDone {s t : State} (h : step s = .next t) (hd : t.kDone = true) :
    ∃ v, t = scannerStep v (takeMove s) := by
  rcases step_pulses_cases h with ⟨_, rfl⟩ | ⟨_, ht⟩ | hp
  · simp [framerStep_kDone] at hd
  · exact ht
  · have hlow : t.kDone = false := congrArg Prod.snd hp
    simp [hlow] at hd

theorem scannerStep_of_kBusy_falls {s t : State} (h : step s = .next t) (hr : nextMove s ≠ .rst) (hb : s.kBusy = true)
    (hb' : t.kBusy = false) : ∃ v, t = scannerStep v (takeMove s) := by
  rcases step_scanner_cases h with hp | ⟨_, ht⟩ | ⟨hm, _⟩ | ⟨u, _, _, rfl⟩
  · obtain ⟨_, _, _, _, hbusy, _⟩ := (scannerPart_eq_iff s t).mp hp
    simp [hbusy, hb] at hb'
  · exact ht
  · exact absurd hm hr
  · cases hb'

theorem step_kDone {s t : State} (hs : ScannerInv s) (hr : nextMove s ≠ .rst) (h : step s = .next t) :
    (t.kDone = true ↔ s.kBusy = true ∧ t.kBusy = false) ∧ (t.kDone = true → t.kNoted = true) := by
  have hown := fun v => scannerStep_completes v (scannerInv_congr (takeMove_scannerPart s) hs) (takeMove_kDone s)
  simp only [takeMove_kBusy] at hown
  refine ⟨⟨fun hd => ?_, fun ⟨hb, hb'⟩ => ?_⟩, fun hd => ?_⟩
  · obtain ⟨v, rfl⟩ := scannerStep_of_kDone h hd
    exact (hown v).1.mp hd
  · obtain ⟨v, rfl⟩ := scannerStep_of_kBusy_falls h hr hb hb'
    exact (hown v).1.mpr ⟨hb, hb'⟩
  · obtain ⟨v, rfl⟩ := scannerStep_of_kDone h hd
    exact (hown v).2 hd

end Sys2Proof.Machine

open Sys2Proof.Machine

/-- Settles O57: from what a step can do to the framer and to the scanner. -/
theorem pinsChangeOnlyByTheirUnit : Obligations.PinsChangeOnlyByTheirUnit :=
  fun _ _ h hr => ⟨step_levels h hr, step_row h hr⟩

/-- Settles O58: both the pulse and the fall of the busy bit are the unit's own step, and in that step they agree. -/
theorem completionPulses : Obligations.CompletionPulses := by
  intro s t hf hk hr h
  obtain ⟨hfDone, hfNoted⟩ := step_fDone hf hr h
  obtain ⟨hkDone, hkNoted⟩ := step_kDone hk hr h
  exact ⟨hfDone, hkDone, hfNoted, hkNoted⟩
end

section
/-! PROOF. The command port: what stands at it, who drives it, and the host that does not (10_state.md R37). -/

namespace Sys2Proof.Machine

/-- A command word is fetched from the port of the state. -/
theorem cmdPort_of_fetch_word {m : Move} {s t : State} {w : Word} (h : fetch m s = some (.word w, t)) :
    cmdPort s = some w := by
  rw [cmdPort_some_iff]
  rcases fetch_some_cases h with ⟨_, h⟩ | ⟨_, h⟩ | ⟨_, h⟩ | ⟨_, h⟩
  · obtain ⟨hh, w', ws, hp, hc, _⟩ := fetchCommand_some h
    cases hc
    exact .inl ⟨hh, by rw [hp, List.head?_cons]⟩
  · obtain ⟨⟨hh, hi⟩, ⟨w', c, hfg, hc, _⟩ | ⟨k, _, hc, _⟩⟩ := fetchForeground_some h <;> cases hc
    exact .inr (.inl ⟨hh, hi, c, hfg⟩)
  · obtain ⟨hh, w', hw, hc, _⟩ := fetchHandler_some h
    cases hc
    exact .inr (.inr ⟨hh, hw⟩)
  · obtain ⟨_, ⟨b, bs, _, hc, _⟩ | ⟨b, bs, fs, _, _, hc, _⟩⟩ := fetchDisplay_some h <;> cases hc

/-- The port does not depend on the moves or the pulses. -/
theorem cmdPort_takeMove (s : State) : cmdPort (takeMove s) = cmdPort s := by simp [cmdPort]

/-- `cmd_valid` is up exactly while the driving host presents a word. -/
theorem cmdValid_iff (s : State) :
    cmdValid s = true ↔
      (s.host = .program ∧ s.program ≠ []) ∨
        (s.host = .reference ∧ ((s.handler = .idle ∧ ∃ w c, s.fg = .issue w c) ∨ ∃ w, s.handler = .issue w)) := by
  rw [cmdValid, Option.isSome_iff_exists]
  simp only [cmdPort_some_iff]
  constructor
  · rintro ⟨w, ⟨hh, hp⟩ | ⟨hh, hi, c, hfg⟩ | ⟨hh, hw⟩⟩
    · exact .inl ⟨hh, fun hnil => by simp [hnil] at hp⟩
    · exact .inr ⟨hh, .inl ⟨hi, w, c, hfg⟩⟩
    · exact .inr ⟨hh, .inr ⟨w, hw⟩⟩
  · rintro (⟨hh, hp⟩ | ⟨hh, ⟨hi, w, c, hfg⟩ | ⟨w, hw⟩⟩)
    · exact ⟨s.program.head hp, .inl ⟨hh, List.head?_eq_some_head hp⟩⟩
    · exact ⟨w, .inr (.inl ⟨hh, hi, c, hfg⟩)⟩
    · exact ⟨w, .inr (.inr ⟨hh, hw⟩)⟩

/-- In a run of an outside host the reference host's agents neither present a code nor act. -/
theorem reference_agent_rests {m : Move} {s : State} (hh : s.host = .program) (hm : m ∈ [Move.foreground, .handler, .tick]) :
    fetch m s = none ∧ unitMove m s = s := by
  simp only [List.mem_cons, List.not_mem_nil, or_false] at hm
  rcases hm with rfl | rfl | rfl
  · simp [fetch, fetchForeground, unitMove, foregroundRuns, hh]
  · simp [fetch, fetchHandler, unitMove, handlerRuns, hh]
  · simp [fetch, unitMove, takeTick, hh]

/-- In a run of the reference host no outside host presents a word. -/
theorem fetchCommand_of_reference {s : State} (hh : s.host = .reference) : fetchCommand s = none := by
  simp [fetchCommand, hh]

end Sys2Proof.Machine

open Sys2Proof.Machine

/-- Settles O59: each fetch of a word is from the port, the other host's agents rest, and every operation of a step leaves
`host`. -/
theorem commandsComeThroughThePort : Obligations.CommandsComeThroughThePort := by
  refine ⟨fun s t w h => ?_, cmdValid_iff, fun s hh hm => ?_, fun s hh hm => ?_, fun s t => step_host⟩
  · have hport : cmdPort s = some w := (cmdPort_takeMove s).symm.trans (cmdPort_of_fetch_word h)
    exact ⟨hport, by simp [cmdValid, hport]⟩
  · obtain ⟨hfetch, hrest⟩ := reference_agent_rests ((takeMove_host s).trans hh) hm
    rw [step_of_fetch_none hfetch, hrest]
  · have hfetch : fetch .command (takeMove s) = none := fetchCommand_of_reference ((takeMove_host s).trans hh)
    have hstep := step_of_fetch_none (s := s) (by rw [hm]; exact hfetch)
    rw [hstep, hm]
    rfl
end

section
/-! PROOF. The bus monitor read one framer event at a time (20_memory.md R66), and what it makes of the framer's
conditions, slots, bytes and frames. -/

namespace Sys2Proof.Machine

/-! ## One event -/

/-- The monitor `m` after the waveform that the events `es` make from the levels `p`. -/
def monitorOver (m : Monitor) (p : Bool × Bool) (es : List FrEvent) : Monitor := monitorFold m p (waveTail p es)

theorem decodedFrames_waveform (p : Bool × Bool) (es : List FrEvent) :
    decodedFrames (waveform p es) = monitorVerdict (monitorOver Monitor.initial p es) := rfl

@[simp] theorem monitorOver_nil (m : Monitor) (p : Bool × Bool) : monitorOver m p [] = m := rfl

theorem monitorOver_append (m : Monitor) (p : Bool × Bool) (es fs : List FrEvent) :
    monitorOver m p (es ++ fs) = monitorOver (monitorOver m p es) (finalLevels p es) fs := by
  simp only [monitorOver, waveTail_append, monitorFold_append, waveTail_getLast]

/-- An event that leaves the levels adds nothing to the waveform, which is what the monitor makes of two equal levels. -/
theorem monitorOver_cons (m : Monitor) (p : Bool × Bool) (e : FrEvent) (es : List FrEvent) :
    monitorOver m p (e :: es) = monitorOver (monitorEdge p (levelsAfter p e) m) (levelsAfter p e) es := by
  by_cases h : levelsAfter p e = p
  · simp [monitorOver, waveTail, h, monitorEdge_same]
  · simp [monitorOver, waveTail, h, monitorFold]

/-- The monitor over one more event at the end. -/
theorem monitorOver_concat (m : Monitor) (p : Bool × Bool) (es : List FrEvent) (e : FrEvent) :
    monitorOver m p (es ++ [e]) =
      monitorEdge (finalLevels p es) (levelsAfter (finalLevels p es) e) (monitorOver m p es) := by
  rw [monitorOver_append, monitorOver_cons, monitorOver_nil]

theorem finalLevels_concat (p : Bool × Bool) (es : List FrEvent) (e : FrEvent) :
    finalLevels p (es ++ [e]) = levelsAfter (finalLevels p es) e := finalLevels_append p es [e]

/-! ## A frame -/

/-- The monitor inside a frame, with the bytes `cur` read and `n` bits of the next one in `acc`. -/
def Monitor.reading (out : List (List Byte)) (cur : List Byte) (n : Nat) (acc : Byte) : Monitor :=
  { inframe := true, nbits := n, acc := acc, cur := cur, out := out, malformed := false }

/-- START opens a frame from any levels: an edge before it is ignored outside a frame. -/
theorem monitorOver_start {m : Monitor} (hm : m.malformed = false) (hf : m.inframe = false) (p : Bool × Bool) :
    monitorOver m p expandStart = Monitor.reading m.out [] 0 0 ∧ finalLevels p expandStart = (true, false) := by
  obtain ⟨c, d⟩ := p
  cases c <;> cases d <;>
    simp [expandStart, settled, monitorOver_cons, finalLevels, levelsAfter, monitorEdge, monitorStart, monitorStop,
      monitorRise, Monitor.reading, hm, hf]

/-- STOP after whole bytes closes the frame: its own clock pulse is the one stray bit (R67). -/
theorem monitorOver_stop (out : List (List Byte)) (cur : List Byte) (d : Bool) :
    monitorOver (Monitor.reading out cur 0 0) (true, d) expandStop =
        { inframe := false, nbits := 1, acc := 0, cur := cur, out := out ++ [cur], malformed := false } ∧
      finalLevels (true, d) expandStop = (true, true) := by
  simp [expandStop, settled, monitorOver_cons, finalLevels, levelsAfter, monitorEdge, monitorStop, monitorRise,
    Monitor.reading, setBit]

@[simp] theorem finalLevels_bitSlot (p : Bool × Bool) (v : Bool) : finalLevels p (bitSlot v) = (true, v) := rfl

@[simp] theorem finalLevels_ackSlot (c d : Bool) : finalLevels (c, d) ackSlot = (true, d) := rfl

/-- A bit slot gives the monitor its bit. -/
theorem monitorOver_bitSlot (out : List (List Byte)) (cur : List Byte) {n : Nat} (acc : Byte) (d v : Bool) (hn : n < 8) :
    monitorOver (Monitor.reading out cur n acc) (true, d) (bitSlot v) = Monitor.reading out cur (n + 1) (setBit acc n v) := by
  simp [bitSlot, settled, monitorOver_cons, levelsAfter, monitorEdge, monitorRise, Monitor.reading, hn]

/-- The acknowledge slot ends the byte. -/
theorem monitorOver_ackSlot (out : List (List Byte)) (cur : List Byte) (acc : Byte) (d : Bool) :
    monitorOver (Monitor.reading out cur 8 acc) (true, d) ackSlot = Monitor.reading out (cur ++ [acc]) 0 0 := by
  simp [ackSlot, settled, monitorOver_cons, levelsAfter, monitorEdge, monitorRise, Monitor.reading]

/-- Eight bits, least significant first, are the byte. -/
theorem setBit_bits : ∀ b : Byte,
    setBit (setBit (setBit (setBit (setBit (setBit (setBit (setBit 0 0 (b.getLsbD 0)) 1 (b.getLsbD 1)) 2 (b.getLsbD 2)) 3
      (b.getLsbD 3)) 4 (b.getLsbD 4)) 5 (b.getLsbD 5)) 6 (b.getLsbD 6)) 7 (b.getLsbD 7) = b := by decide

theorem finalLevels_wrbyte (p : Bool × Bool) (b : Byte) : finalLevels p (expandWrbyte b) = (true, b.getLsbD 7) := by
  simp [expandWrbyte, finalLevels_append]

/-- A transmitted byte is read as that byte. -/
theorem monitorOver_wrbyte (out : List (List Byte)) (cur : List Byte) (d : Bool) (b : Byte) :
    monitorOver (Monitor.reading out cur 0 0) (true, d) (expandWrbyte b) = Monitor.reading out (cur ++ [b]) 0 0 := by
  simp only [expandWrbyte, monitorOver_append, finalLevels_append, finalLevels_bitSlot, Nat.reduceLT, Nat.reduceAdd,
    monitorOver_bitSlot, monitorOver_ackSlot, setBit_bits]

/-- Transmitted bytes are read as those bytes, and CLK is left at 1. -/
theorem monitorOver_bytes (out : List (List Byte)) (cur : List Byte) (d : Bool) (bs : List Byte) :
    monitorOver (Monitor.reading out cur 0 0) (true, d) (expandBytes bs) = Monitor.reading out (cur ++ bs) 0 0 ∧
      ∃ d', finalLevels (true, d) (expandBytes bs) = (true, d') := by
  induction bs generalizing cur d with
  | nil => exact ⟨by rw [List.append_nil]; rfl, d, rfl⟩
  | cons b bs ih =>
    obtain ⟨hmon, hlev⟩ := ih (cur ++ [b]) (b.getLsbD 7)
    rw [expandBytes, monitorOver_append, finalLevels_append, monitorOver_wrbyte, finalLevels_wrbyte, hmon]
    exact ⟨by rw [List.append_assoc]; rfl, hlev⟩

/-- A frame, from any levels, adds itself to what the monitor has read, and leaves the bus idle. -/
theorem monitorOver_frame {m : Monitor} (hm : m.malformed = false) (hf : m.inframe = false) (p : Bool × Bool)
    (bs : List Byte) :
    monitorOver m p (frame bs) =
        { inframe := false, nbits := 1, acc := 0, cur := bs, out := m.out ++ [bs], malformed := false } ∧
      finalLevels p (frame bs) = (true, true) := by
  obtain ⟨hstart, hlow⟩ := monitorOver_start hm hf p
  obtain ⟨hbytes, d, hd⟩ := monitorOver_bytes m.out [] false bs
  obtain ⟨hstop, hidle⟩ := monitorOver_stop m.out bs d
  simp only [frame, monitorOver_append, finalLevels_append, hstart, hlow, hbytes, hd, List.nil_append, hstop, hidle,
    and_self]

/-- Frames in order add themselves to what the monitor has read. -/
theorem monitorVerdict_frames {m : Monitor} (hm : m.malformed = false) (hf : m.inframe = false) (p : Bool × Bool)
    (fs : List (List Byte)) : monitorVerdict (monitorOver m p (expandFrames fs)) = some (m.out ++ fs) := by
  induction fs generalizing m p with
  | nil => simp [expandFrames, monitorVerdict, hm, hf]
  | cons f fs ih =>
    obtain ⟨hmon, hlev⟩ := monitorOver_frame hm hf p f
    rw [expandFrames, monitorOver_append, hmon, hlev, ih rfl rfl, List.append_assoc]
    rfl

end Sys2Proof.Machine

open Sys2Proof.Machine

/-- Settles O30: each frame is read whole, by induction on the frames and on the bytes of a frame. -/
theorem framesDecodeToThemselves : Obligations.FramesDecodeToThemselves := fun p fs =>
  (decodedFrames_waveform p _).trans (monitorVerdict_frames rfl rfl p fs)
end

section
/-! PROOF. The monitor of the state follows the trace: what each step leaves of the monitor, the levels and the framer's
events (20_memory.md R66, 10_state.md R40). -/

namespace Sys2Proof.Machine

theorem monitorInv_iff (s : State) :
    MonitorInv s ↔ s.mon = monitorOver Monitor.initial (true, true) (framerEvents s.trace) ∧
      levels s = finalLevels (true, true) (framerEvents s.trace) := Iff.rfl

/-- The monitor's invariant is about the framer and the framer's events of the trace. -/
theorem monitorInv_congr {s t : State} (hf : framerPart t = framerPart s) (ht : framerEvents t.trace = framerEvents s.trace)
    (hs : MonitorInv s) : MonitorInv t := by
  obtain ⟨_, _, _, _, _, _, _, _, _, hmon⟩ := (framerPart_eq_iff s t).mp hf
  rw [monitorInv_iff] at hs ⊢
  rwa [ht, hmon, levels_of_framerPart hf]

/-- What one framer event shows the monitor: the levels before and after it, which a wait leaves equal. -/
theorem performFr_mon (e : FrEvent) (s : State) :
    (performFr e s).mon = monitorEdge (levels s) (levelsAfter (levels s) e) s.mon := by
  cases e with
  | write l v => rfl
  | settle => exact (monitorEdge_same _ _).symm

theorem performFr_monitorInv (e : FrEvent) {s : State} (hs : MonitorInv s) : MonitorInv (performFr e s) := by
  obtain ⟨_, htrace, hlevels, _⟩ := performFr_frame e s
  have hevents : framerEvents (performFr e s).trace = framerEvents s.trace ++ [e] := by
    rw [htrace, framerEvents_append]; rfl
  rw [monitorInv_iff] at hs ⊢
  obtain ⟨hmon, hlev⟩ := hs
  rw [hevents, monitorOver_concat, finalLevels_concat, performFr_mon, hlevels, hmon, hlev]
  exact ⟨rfl, rfl⟩

/-- What follows an event records no framer event and leaves the bus. -/
theorem framerAfter_monitorInv (rest : List FrEvent) {s : State} (hs : MonitorInv s) : MonitorInv (framerAfter rest s) := by
  rcases framerAfter_cases rest s with ⟨_, h⟩ | ⟨_, h⟩ <;> rw [h]
  · exact hs
  · have hevents : framerEvents (s.trace ++ [.doneFramer]) = framerEvents s.trace := by
      rw [framerEvents_append, framerEvents, framerEvents, List.append_nil]
    rw [monitorInv_iff] at hs ⊢
    rwa [hevents]

theorem framerStep_monitorInv {s : State} (hs : MonitorInv s) : MonitorInv (framerStep s) := by
  cases hq : s.fq with
  | nil => rwa [framerStep_nil hq]
  | cons e rest => rw [framerStep_cons hq]; exact framerAfter_monitorInv rest (performFr_monitorInv e hs)

@[simp] theorem afterSample_trace (v : BitVec 4) (s : State) : (afterSample v s).trace = s.trace := by
  rcases afterSample_cases v s with ⟨_, h⟩ | ⟨_, _, h⟩ | ⟨_, _, h⟩ <;> rw [h]

/-- The scanner records no framer event. -/
theorem scannerStep_framerEvents (v : BitVec 4) (s : State) :
    framerEvents (scannerStep v s).trace = framerEvents s.trace := by
  rcases scannerStep_cases v s with ⟨_, h⟩ | ⟨_, h⟩ | ⟨_, h⟩ | ⟨_, h⟩ | ⟨_, h⟩ | ⟨_, h⟩ | ⟨_, h⟩ <;>
    simp [h, framerEvents_append, framerEvents]

/-- The acceptance of a command records no framer event. -/
theorem framerEvents_issue (tr : List Event) (w : Word) : framerEvents (tr ++ [.issue w]) = framerEvents tr := by
  simp [framerEvents_append, framerEvents]

theorem step_monitorInv {s t : State} (hs : MonitorInv s) (hr : nextMove s ≠ .rst) (h : step s = .next t) :
    MonitorInv t := by
  have keeps : ∀ {u}, framerPart u = framerPart s → u.trace = s.trace → MonitorInv u := fun hf htr =>
    monitorInv_congr hf (congrArg framerEvents htr) hs
  have htake : MonitorInv (takeMove s) := keeps (takeMove_framerPart s) (takeMove_trace s)
  rcases step_block_cases h with ⟨_, rfl⟩ | ⟨_, v, rfl⟩ | ⟨hrst, _⟩ | ⟨hf, _, htr, _⟩ |
    ⟨u, i, w, df, ⟨hf, _, htr, _⟩, _, _, _, _, rfl, _⟩ | ⟨u, ⟨hf, _, htr, _⟩, _, rfl⟩
  · exact framerStep_monitorInv htake
  · exact monitorInv_congr (scannerStep_framerPart v _) (scannerStep_framerEvents v _) htake
  · exact absurd hrst hr
  · exact keeps hf htr
  · have hu := (monitorInv_iff u).mp (keeps hf htr)
    rw [monitorInv_iff, loadFramer_trace, framerEvents_issue]
    exact hu
  · exact monitorInv_congr (s := u) rfl (by rw [loadScanner_trace, framerEvents_issue]) (keeps hf htr)

end Sys2Proof.Machine

open Sys2Proof.Machine

/-- Settles O32: an event the framer performs is one more edge for the monitor, and every other step leaves the monitor, the
levels and the framer's events. -/
theorem monitorFollowsTrace : Obligations.MonitorFollowsTrace := fun _ _ => step_monitorInv
end

section
/-! PROOF. The constant tables (20_memory.md R60, R61) and RENDER's reading of them. -/

namespace Sys2Proof.Machine

/-- An entry of SEG has bit 7 clear. -/
theorem seg_bit7 {d : Nat} {b : Byte} (h : seg d = some b) : b.getLsbD 7 = false :=
  (by decide : ∀ b ∈ segTable, b.getLsbD 7 = false) b (List.mem_of_getElem? h)

theorem seg_eq_none {d : Nat} (h : 10 ≤ d) : seg d = none := List.getElem?_eq_none h

/-- RENDER is refused, waits or is accepted: it meets no fault. -/
theorem execRender_no_fault (m sec : BitVec 6) (c : Bool) (s : State) (r : Fault) : execRender m sec c s ≠ .fault r := by
  rcases execRender_cases m sec c s with ⟨_, h⟩ | ⟨df, _, _, h⟩ <;> rw [h]
  · exact nofun
  · rcases acceptFramer_cases (renderWord m sec c) (expandRefresh df) df s with ⟨_, h⟩ | ⟨_, h⟩ <;> rw [h] <;>
      exact nofun

end Sys2Proof.Machine

open Sys2Proof.Machine

/-- Settles O26: the entries are the table's, and a RENDER that reads it has its operands in the domain. -/
theorem segmentTable : Obligations.SegmentTable :=
  ⟨rfl, rfl, rfl, rfl, rfl, rfl, rfl, rfl, rfl, rfl, fun _ _ => seg_bit7, fun _ => seg_eq_none,
    fun m sec c s => execRender_no_fault m sec c s .segIndex⟩

/-- Settles O28: sixteen lookups in a closed table. -/
theorem keymapSymbols : Obligations.KeymapSymbols := ⟨rfl, rfl, rfl, rfl⟩
end

section
/-! PROOF. The display sink as the consumer of bus command bytes and data bytes (20_memory.md R65, R68). -/

namespace Sys2Proof.Machine

/-! ## The bus command bytes -/

/-- BUS_DATA_AUTOINC sets the mode, alone in its frame. -/
theorem exec_busDataAutoinc (s : State) :
    exec .busDataAutoinc s =
      .next (if s.sink.rest = [] then { s with sink := { s.sink with mode := .autoinc } } else sinkRefuse s) := by
  cases h : s.sink.rest <;> simp [exec, execBusDataAutoinc, h]

/-- BUS_ADDR0 starts the burst, in mode autoinc and with at most four bytes to come. -/
theorem exec_busAddr0 (s : State) :
    exec .busAddr0 s =
      .next (if s.sink.mode = .autoinc ∧ s.sink.rest.length ≤ displaySize then { s with sink := { s.sink with addr := 0 } }
        else sinkRefuse s) :=
  (apply_ite Host.Outcome.next _ _ _).symm

/-- BUS_DISPLAY_ON switches the display on, alone in its frame. -/
theorem exec_busDisplayOn (s : State) :
    exec .busDisplayOn s =
      .next (if s.sink.rest = [] then { s with sink := { s.sink with on := .on } } else sinkRefuse s) := by
  cases h : s.sink.rest <;> simp [exec, execBusDisplayOn, h]

/-! ## The data bytes -/

theorem listed_lookup_mem {rows : List (Byte × Instr)} {b : Byte} {i : Instr} (h : listed (rows.lookup b) = .ok i) :
    (b, i) ∈ rows := by
  cases hl : rows.lookup b with
  | none => rw [hl] at h; cases h
  | some j =>
    rw [hl] at h
    cases h
    obtain ⟨l, r, hrows, _⟩ := List.lookup_eq_some_iff.mp hl
    simp [hrows]

/-- The colon bit with the other seven bits of a byte that has it is that byte. -/
theorem colon_or_low : ∀ b : Byte, b.getLsbD 7 = true → 0x80 ||| (b.extractLsb' 0 7).zeroExtend 8 = b := by decide

/-- The instruction of a data byte stores that byte. -/
theorem exec_of_decodeData {b : Byte} {i : Instr} (h : decodeData b = .ok i) (s : State) :
    exec i s = .next (storeData b s) := by
  unfold decodeData at h
  split at h
  · rename_i hcolon
    cases h
    rw [← congrArg (storeData · s) (colon_or_low b hcolon)]
    rfl
  · have hmem := listed_lookup_mem h
    simp only [segRows, List.mem_cons, Prod.mk.injEq, List.not_mem_nil, or_false] at hmem
    rcases hmem with ⟨rfl, rfl⟩ | ⟨rfl, rfl⟩ | ⟨rfl, rfl⟩ | ⟨rfl, rfl⟩ | ⟨rfl, rfl⟩ | ⟨rfl, rfl⟩ | ⟨rfl, rfl⟩ |
      ⟨rfl, rfl⟩ | ⟨rfl, rfl⟩ | ⟨rfl, rfl⟩ <;> rfl

theorem decodeData_of_segRows : ∀ r ∈ segRows, decodeData r.1 = .ok r.2 := by decide

/-- A byte with the colon bit decodes to COLON_BIT with its other seven bits. -/
theorem decodeData_colon {b : Byte} (h : b.getLsbD 7 = true) : decodeData b = .ok (.colonBit (b.extractLsb' 0 7)) :=
  if_pos h

end Sys2Proof.Machine

open Sys2Proof Sys2Proof.Machine

/-- Settles O34: each byte's effect with its condition, and the condition failing. -/
theorem busCommandBytes : Obligations.BusCommandBytes := by
  intro s
  rw [exec_busDataAutoinc, exec_busAddr0, exec_busDisplayOn]
  refine ⟨fun h => by rw [if_pos h], fun h => by rw [if_neg h]; rfl, fun hm hl => by rw [if_pos ⟨hm, hl⟩], fun h => ?_,
    fun h => by rw [if_pos h], fun h => by rw [if_neg h]; rfl⟩
  rw [if_neg]
  · rfl
  · rintro ⟨hm, hl⟩
    rcases h with h | h
    · cases hm.symm.trans h
    · exact absurd hl (not_le.mpr h)

/-- Settles O35: the instruction is the one the byte decodes to, and it stores that byte at the address reached. -/
theorem segmentBytesStored : Obligations.SegmentBytesStored := by
  intro s i b hi
  have hdec : decodeData b = .ok i := by
    rcases hi with hi | ⟨low, rfl, hcolon, rfl⟩
    · have hi : (i, b) ∈ segRows.map Prod.swap := hi
      obtain ⟨r, hr, he⟩ := List.mem_map.mp hi
      cases he
      exact decodeData_of_segRows r hr
    · exact decodeData_colon hcolon
  rw [exec_of_decodeData hdec]
  rcases storeData_cases b s with ⟨haddr, h⟩ | ⟨haddr, h⟩ <;> rw [h]
  · exact ⟨fun _ => ⟨_, rfl, Memory.read_write_same _ _ b, fun a ha => Memory.read_write_other _ b ha⟩,
      fun h4 => absurd haddr (not_lt.mpr h4)⟩
  · exact ⟨fun h4 => absurd h4 (not_lt.mpr haddr), fun _ => rfl⟩
end

section
/-! PROOF. The display sink's moves: what each one does, and that the moves of a whole frame are R68 on that frame
(20_memory.md R68; assumption 6). -/

namespace Sys2Proof.Machine

/-! ## What the decoders of a frame's bytes answer -/

theorem listed_cases (o : Option Instr) : (∃ i, listed o = .ok i) ∨ listed o = .unlisted := by
  cases o with
  | none => exact .inr rfl
  | some i => exact .inl ⟨i, rfl⟩

theorem decodeData_cases (b : Byte) : (∃ i, decodeData b = .ok i) ∨ decodeData b = .unlisted := by
  unfold decodeData
  split
  · exact .inl ⟨_, rfl⟩
  · exact listed_cases _

theorem decodeBus_cases (b : Byte) :
    (b = 0x40 ∧ decodeBus b = .ok .busDataAutoinc) ∨ (b = 0xC0 ∧ decodeBus b = .ok .busAddr0) ∨
      (b = 0x8F ∧ decodeBus b = .ok .busDisplayOn) ∨
      (b ≠ 0x40 ∧ b ≠ 0xC0 ∧ b ≠ 0x8F) ∧ decodeBus b = .unlisted := by
  by_cases h1 : b = 0x40
  · exact .inl ⟨h1, by rw [h1]; rfl⟩
  by_cases h2 : b = 0xC0
  · exact .inr (.inl ⟨h2, by rw [h2]; rfl⟩)
  by_cases h3 : b = 0x8F
  · exact .inr (.inr (.inl ⟨h3, by rw [h3]; rfl⟩))
  refine .inr (.inr (.inr ⟨⟨h1, h2, h3⟩, ?_⟩))
  have hnone : busRows.lookup b = none := by
    simp only [busRows, List.lookup_cons, List.lookup_nil, beq_eq_false_iff_ne.mpr h1, beq_eq_false_iff_ne.mpr h2,
      beq_eq_false_iff_ne.mpr h3]
  rw [decodeBus, hnone]
  rfl

/-! ## R68 by the first byte -/

theorem sinkFrame_autoinc (k : SinkView) (ds : List Byte) :
    sinkFrame k (0x40 :: ds) = if ds = [] then some { k with mode := .autoinc } else none := by
  by_cases h : ds = [] <;> simp [sinkFrame, h]

theorem sinkFrame_addr0 (k : SinkView) (ds : List Byte) :
    sinkFrame k (0xC0 :: ds) =
      if k.mode = .autoinc ∧ ds.length ≤ displaySize then some { k with dm := k.dm.writeFrom 0 ds } else none := by
  simp [sinkFrame]

theorem sinkFrame_displayOn (k : SinkView) (ds : List Byte) :
    sinkFrame k (0x8F :: ds) = if ds = [] then some { k with on := .on } else none := by
  by_cases h : ds = [] <;> simp [sinkFrame, h]

theorem sinkFrame_other (k : SinkView) {b : Byte} (ds : List Byte) (h : b ≠ 0x40 ∧ b ≠ 0xC0 ∧ b ≠ 0x8F) :
    sinkFrame k (b :: ds) = none := by
  obtain ⟨h1, h2, h3⟩ := h
  simp only [sinkFrame, h1, h2, h3, false_and, if_false]

/-! ## One move of the sink -/

/-- `u` is `s` but for the display, the pulses and the moves. -/
def OutsideDisplay (s u : State) : Prop :=
  framerPart u = framerPart s ∧ scannerPart u = scannerPart s ∧ hostPart u = hostPart s ∧ u.trace = s.trace

theorem OutsideDisplay.trans {s t u : State} (h : OutsideDisplay s t) (h' : OutsideDisplay t u) : OutsideDisplay s u := by
  obtain ⟨hf, hs, hh, ht⟩ := h
  obtain ⟨hf', hs', hh', ht'⟩ := h'
  exact ⟨hf'.trans hf, hs'.trans hs, hh'.trans hh, ht'.trans ht⟩

/-- The state in which a display move has been taken and the sink holds `k`. -/
def displayTurn (ms : List Move) (k : Sink) (s : State) : State := { endPulses s with moves := ms, sink := k }

section
variable {s : State} {ms : List Move} (hm : s.moves = .display :: ms)
include hm

/-- A sink that has refused rests. -/
theorem step_display_refused (hr : s.sink.refused = true) : step s = .next (displayTurn ms s.sink s) := by
  have hf : fetch (nextMove s) (takeMove s) = none := by
    simp [nextMove_of_cons hm, fetch, fetchDisplay, hr]
  rw [step_of_fetch_none hf, nextMove_of_cons hm, takeMove_of_cons hm]
  simp [unitMove, displayIdle, displayTurn, hr]

variable (hr : s.sink.refused = false)
include hr

/-- The sink refuses an empty frame. -/
theorem step_display_empty {fs : List (List Byte)} (hrest : s.sink.rest = []) (hin : s.sink.inbox = [] :: fs) :
    step s = .next (sinkRefuse (displayTurn ms { s.sink with inbox := fs } s)) := by
  have hf : fetch (nextMove s) (takeMove s) = none := by
    simp [nextMove_of_cons hm, fetch, fetchDisplay, hr, hrest, hin]
  rw [step_of_fetch_none hf, nextMove_of_cons hm, takeMove_of_cons hm]
  simp [unitMove, displayIdle, displayTurn, hr, hrest, hin]

/-- The sink takes a data byte and stores it. -/
theorem step_display_data {b : Byte} {bs : List Byte} (hrest : s.sink.rest = b :: bs) :
    step s = .next (storeData b (displayTurn ms { s.sink with rest := bs } s)) := by
  have hf : fetch (nextMove s) (takeMove s) = some (.data b, displayTurn ms { s.sink with rest := bs } s) := by
    simp [nextMove_of_cons hm, takeMove_of_cons hm, fetch, fetchDisplay, displayTurn, hr, hrest]
  rcases decodeData_cases b with ⟨i, hd⟩ | hd
  · have hready : ready i (takeMove s) = true := by simp [ready, decode_data_consumer (show decode (.data b) = .ok i from hd)]
    simp [step, hf, decode, hd, presented, hready, exec_of_decodeData hd]
  · simp [step, hf, decode, hd, noInstr, passByte]

/-- Below address 4 a data byte is stored, and the address advances. -/
theorem step_display_store {b : Byte} {bs : List Byte} (hrest : s.sink.rest = b :: bs) (ha : s.sink.addr < displaySize) :
    ∃ t, step s = .next t ∧ t.moves = ms ∧ t.sink = { s.sink with rest := bs, addr := s.sink.addr + 1 } ∧
      t.dm = s.dm.write s.sink.addr b ∧ OutsideDisplay s t :=
  ⟨_, (step_display_data hm hr hrest).trans (congrArg Host.Outcome.next (if_pos ha)), rfl, rfl, rfl, rfl, rfl, rfl, rfl⟩

/-- The sink takes the first byte of a frame: its instruction runs, or the frame is refused. -/
theorem step_display_first {b : Byte} {bs : List Byte} {fs : List (List Byte)} (hrest : s.sink.rest = [])
    (hin : s.sink.inbox = (b :: bs) :: fs) :
    (∀ i, decodeBus b = .ok i → step s = exec i (displayTurn ms { s.sink with rest := bs, inbox := fs } s)) ∧
      (decodeBus b = .unlisted →
        step s = .next (sinkRefuse (displayTurn ms { s.sink with rest := bs, inbox := fs } s))) := by
  have hf : fetch (nextMove s) (takeMove s) = some (.bus b, displayTurn ms { s.sink with rest := bs, inbox := fs } s) := by
    simp [nextMove_of_cons hm, takeMove_of_cons hm, fetch, fetchDisplay, displayTurn, hr, hrest, hin]
  refine ⟨fun i hd => ?_, fun hd => ?_⟩
  · have hready : ready i (takeMove s) = true := by simp [ready, decode_bus_consumer (show decode (.bus b) = .ok i from hd)]
    simp [step, hf, decode, hd, presented, hready]
  · simp [step, hf, decode, hd, noInstr, passByte]

end

/-! ## The moves of a frame -/

/-- The moves of a sink that has refused. -/
theorem runSteps_refused (n : Nat) {s : State} {ms : List Move} (hm : s.moves = List.replicate n .display ++ ms)
    (hr : s.sink.refused = true) :
    ∃ u, runSteps n s = .next u ∧ u.moves = ms ∧ u.sink = s.sink ∧ u.dm = s.dm ∧ OutsideDisplay s u := by
  induction n generalizing s with
  | zero => exact ⟨s, rfl, hm, rfl, rfl, rfl, rfl, rfl, rfl⟩
  | succ n ih =>
    have hstep := step_display_refused hm hr
    obtain ⟨u, hrun, hmoves, hsink, hdm, hout⟩ :=
      ih (s := displayTurn (List.replicate n .display ++ ms) s.sink s) rfl hr
    exact ⟨u, (runSteps_succ_of_next n hstep).trans hrun, hmoves, hsink, hdm, hout⟩

/-- The moves of a burst that fits the display memory. -/
theorem runSteps_burst (bs : List Byte) {s : State} {ms : List Move}
    (hm : s.moves = List.replicate bs.length .display ++ ms) (hr : s.sink.refused = false) (hrest : s.sink.rest = bs)
    (hfit : bs = [] ∨ s.sink.addr + bs.length ≤ displaySize) :
    ∃ u, runSteps bs.length s = .next u ∧ u.moves = ms ∧
      u.sink = { s.sink with rest := [], addr := s.sink.addr + bs.length } ∧ u.dm = s.dm.writeFrom s.sink.addr bs ∧
      OutsideDisplay s u := by
  induction bs generalizing s with
  | nil => exact ⟨s, rfl, hm, congrArg (fun r => { s.sink with rest := r }) hrest, rfl, rfl, rfl, rfl, rfl⟩
  | cons b bs ih =>
    have hlen : s.sink.addr + (bs.length + 1) ≤ displaySize := hfit.resolve_left (List.cons_ne_nil b bs)
    obtain ⟨t, hstep, hmoves, hsink, hdm, hout⟩ := step_display_store hm hr hrest (by omega)
    have haddr : t.sink.addr = s.sink.addr + 1 := by rw [hsink]
    obtain ⟨u, hrun, hmoves', hsink', hdm', hout'⟩ :=
      ih hmoves (by rw [hsink]; exact hr) (by rw [hsink]) (.inr (by omega))
    refine ⟨u, (runSteps_succ_of_next _ hstep).trans hrun, hmoves', ?_, ?_, hout.trans hout'⟩
    · rw [hsink', hsink, List.length_cons, Nat.add_right_comm, Nat.add_assoc]
    · rw [hdm', haddr, hdm, Memory.writeFrom]

/-- After the first byte of a frame the sink has refused it as R68 does, or goes on to what R68 makes of it. -/
def FirstByteRead (b : Byte) (bs : List Byte) (s t : State) : Prop :=
  (sinkFrame (sinkView s) (b :: bs) = none ∧ sinkView t = sinkView s ∧ t.sink.refused = true) ∨
    (sinkFrame (sinkView s) (b :: bs) = some { sinkView t with dm := t.dm.writeFrom t.sink.addr bs } ∧
      t.sink.refused = false ∧ t.sink.rest = bs ∧ (bs = [] ∨ t.sink.addr + bs.length ≤ displaySize))

/-- A turn that takes a first byte and accepts its frame with mode `m`, on `o` and address `a`, or refuses it, as R68 does. -/
theorem step_firstByte_of_ite {s : State} {ms : List Move} {b : Byte} {bs : List Byte} {fs : List (List Byte)} {t : State}
    {P : Prop} [Decidable P] (m : SinkMode) (o : SinkOn) (a : Nat)
    (ht : t = displayTurn ms { s.sink with rest := bs, inbox := fs } s) (hr : s.sink.refused = false)
    (hstep : step s = .next
      (if P then { t with sink := { t.sink with mode := m, on := o, addr := a } } else sinkRefuse t))
    (hacc : P → sinkFrame (sinkView s) (b :: bs) = some { mode := m, on := o, dm := s.dm.writeFrom a bs } ∧
      (bs = [] ∨ a + bs.length ≤ displaySize))
    (hrej : ¬P → sinkFrame (sinkView s) (b :: bs) = none) :
    ∃ t, step s = .next t ∧ t.moves = ms ∧ t.sink.inbox = fs ∧ OutsideDisplay s t ∧ FirstByteRead b bs s t := by
  subst ht
  refine ⟨_, hstep, ?_⟩
  by_cases h : P
  · rw [if_pos h]
    obtain ⟨hframe, hfit⟩ := hacc h
    exact ⟨rfl, rfl, ⟨rfl, rfl, rfl, rfl⟩, .inr ⟨hframe, hr, rfl, hfit⟩⟩
  · rw [if_neg h]
    exact ⟨rfl, rfl, ⟨rfl, rfl, rfl, rfl⟩, .inl ⟨hrej h, rfl, rfl⟩⟩

/-- The move of a frame's first byte. -/
theorem step_firstByte {s : State} {ms : List Move} {b : Byte} {bs : List Byte} {fs : List (List Byte)}
    (hm : s.moves = .display :: ms) (hr : s.sink.refused = false) (hrest : s.sink.rest = [])
    (hin : s.sink.inbox = (b :: bs) :: fs) :
    ∃ t, step s = .next t ∧ t.moves = ms ∧ t.sink.inbox = fs ∧ OutsideDisplay s t ∧ FirstByteRead b bs s t := by
  obtain ⟨hok, hno⟩ := step_display_first hm hr hrest hin
  rcases decodeBus_cases b with ⟨rfl, hd⟩ | ⟨rfl, hd⟩ | ⟨rfl, hd⟩ | ⟨hb, hd⟩
  · refine step_firstByte_of_ite .autoinc s.sink.on s.sink.addr rfl hr ((hok _ hd).trans (exec_busDataAutoinc _))
      (fun (h : bs = []) => ⟨?_, .inl h⟩) (fun (h : bs ≠ []) => ?_)
    · rw [sinkFrame_autoinc, if_pos h, h]
      rfl
    · rw [sinkFrame_autoinc, if_neg h]
  · refine step_firstByte_of_ite s.sink.mode s.sink.on 0 rfl hr ((hok _ hd).trans (exec_busAddr0 _))
      (fun (h : s.sink.mode = .autoinc ∧ bs.length ≤ displaySize) => ⟨?_, .inr ((Nat.zero_add _).trans_le h.2)⟩)
      (fun (h : ¬(s.sink.mode = .autoinc ∧ bs.length ≤ displaySize)) => ?_)
    · exact (sinkFrame_addr0 _ bs).trans (if_pos h)
    · exact (sinkFrame_addr0 _ bs).trans (if_neg h)
  · refine step_firstByte_of_ite s.sink.mode .on s.sink.addr rfl hr ((hok _ hd).trans (exec_busDisplayOn _))
      (fun (h : bs = []) => ⟨?_, .inl h⟩) (fun (h : bs ≠ []) => ?_)
    · rw [sinkFrame_displayOn, if_pos h, h]
      rfl
    · rw [sinkFrame_displayOn, if_neg h]
  · exact ⟨_, hno hd, rfl, rfl, ⟨rfl, rfl, rfl, rfl⟩, .inl ⟨sinkFrame_other _ bs hb, rfl, rfl⟩⟩

/-- The sink of `u` holds what R68 makes of the frame `f` and the sink of `s`, its refuse being the mark. -/
def FrameRead (f : List Byte) (s u : State) : Prop :=
  (sinkFrame (sinkView s) f = none ∧ sinkView u = sinkView s ∧ u.sink.refused = true) ∨
    (sinkFrame (sinkView s) f = some (sinkView u) ∧ u.sink.refused = false ∧ u.sink.rest = [])

/-- The moves of a whole frame: its first byte, then a burst or a sink at rest; an empty frame takes one move. -/
theorem runSteps_frame {s : State} {ms : List Move} {f : List Byte} {fs : List (List Byte)}
    (hm : s.moves = List.replicate (max 1 f.length) .display ++ ms) (hr : s.sink.refused = false) (hrest : s.sink.rest = [])
    (hin : s.sink.inbox = f :: fs) :
    ∃ u, runSteps (max 1 f.length) s = .next u ∧ u.sink.inbox = fs ∧ u.moves = ms ∧ FrameRead f s u ∧
      OutsideDisplay s u := by
  cases f with
  | nil =>
    have hstep := step_display_empty (ms := ms) hm hr hrest hin
    exact ⟨_, runSteps_succ_of_next 0 hstep, rfl, rfl, .inl ⟨rfl, rfl, rfl⟩, rfl, rfl, rfl, rfl⟩
  | cons b bs =>
    have hlen : max 1 (b :: bs).length = bs.length + 1 := by rw [List.length_cons]; omega
    rw [hlen] at hm ⊢
    obtain ⟨t, hstep, hmoves, hinbox, hout, hread⟩ := step_firstByte hm hr hrest hin
    rw [runSteps_succ_of_next _ hstep]
    rcases hread with ⟨hframe, hview, hrefused⟩ | ⟨hframe, hrefused, hbytes, hfit⟩
    · obtain ⟨u, hrun, hmoves', hsink, hdm, hout'⟩ := runSteps_refused bs.length hmoves hrefused
      have hview' : sinkView u = sinkView t := by rw [sinkView, hsink, hdm]; rfl
      exact ⟨u, hrun, by rw [hsink, hinbox], hmoves', .inl ⟨hframe, hview'.trans hview, by rw [hsink, hrefused]⟩,
        hout.trans hout'⟩
    · obtain ⟨u, hrun, hmoves', hsink, hdm, hout'⟩ := runSteps_burst bs hmoves hrefused hbytes hfit
      have hview' : sinkView u = { sinkView t with dm := t.dm.writeFrom t.sink.addr bs } := by
        rw [sinkView, hsink, hdm]; rfl
      exact ⟨u, hrun, by rw [hsink, hinbox], hmoves', .inr ⟨by rw [hframe, hview'], by rw [hsink, hrefused], by rw [hsink]⟩,
        hout.trans hout'⟩

end Sys2Proof.Machine

open Sys2Proof.Machine

/-- Settles O36: the first byte is accepted or refused as R68 does with the whole frame, and the rest is a burst that fits, or
is not read. -/
theorem sinkReadsWholeFrames : Obligations.SinkReadsWholeFrames := by
  intro s f fs ms hr hrest hin
  obtain ⟨u, hrun, hinbox, hmoves, hread, hframer, hscanner, hhost, htrace⟩ :=
    runSteps_frame (s := { s with moves := List.replicate (max 1 f.length) .display ++ ms }) rfl hr hrest hin
  have hread : FrameRead f s u := hread
  refine ⟨u, hrun, hinbox, hmoves, fun k hk => ?_, fun hk => ?_, hframer, hscanner, hhost, htrace⟩
  · rcases hread with ⟨hframe, _⟩ | ⟨hframe, hrefused, hdone⟩
    · cases hk.symm.trans hframe
    · exact ⟨Option.some.inj (hframe.symm.trans hk), hrefused, hdone⟩
  · rcases hread with ⟨_, hview, hrefused⟩ | ⟨hframe, _⟩
    · exact ⟨hview, hrefused⟩
    · cases hk.symm.trans hframe
end

section
/-! PROOF. The framer's step and the scanner's step commute: each changes its own part of the state and appends its own events
(20_memory.md R76). -/

namespace Sys2Proof.Machine

/-! ## What each unit's step appends to the trace -/

/-- The events a framer step records. -/
def framerStepEvents (s : State) : List Event :=
  match s.fq with
  | [] => []
  | [e] => [.fr e, .doneFramer]
  | e :: _ :: _ => [.fr e]

/-- The events a scanner step records. -/
def scannerStepEvents (v : BitVec 4) (s : State) : List Event :=
  match s.kst with
  | .idle => []
  | .drive => [.rowWrite (onehot s.krow)]
  | .sample => [.colSample v]
  | .releaseHit => [.rowWrite 0]
  | .debounce => [.debounce]
  | .releaseMiss => [.rowWrite 0]
  | .ret => [.ret (scanResult s.krow s.kcols)]

theorem framerStepEvents_source (s : State) : ∀ e ∈ framerStepEvents s, e.source ≠ .scanner := by
  unfold framerStepEvents
  split <;> simp [Event.source]

theorem scannerStepEvents_source (v : BitVec 4) (s : State) : ∀ e ∈ scannerStepEvents v s, e.source = .scanner := by
  unfold scannerStepEvents
  split <;> simp [Event.source]

/-- Events of the scanner and events of other sources may be swapped in every projection of the trace. -/
theorem eventsOf_append_comm (u : EventSource) {a b : List Event} (ha : ∀ e ∈ a, e.source = .scanner)
    (hb : ∀ e ∈ b, e.source ≠ .scanner) : eventsOf u (a ++ b) = eventsOf u (b ++ a) := by
  simp only [eventsOf_append]
  by_cases hu : u = .scanner
  · have hnil : eventsOf u b = [] := List.filter_eq_nil_iff.mpr fun e he => by simp [hu, hb e he]
    rw [hnil, List.append_nil, List.nil_append]
  · have hnil : eventsOf u a = [] := List.filter_eq_nil_iff.mpr fun e he => by simp [ha e he, Ne.symm hu]
    rw [hnil, List.append_nil, List.nil_append]

/-! ## Each unit's step beside the other unit -/

/-- `s` with the scanner of `k` and the trace `tr`. -/
def withScanner (k : State) (tr : List Event) (s : State) : State :=
  { s with
    row := k.row
    krow := k.krow
    kcols := k.kcols
    kst := k.kst
    kBusy := k.kBusy
    kDone := k.kDone
    kNoted := k.kNoted
    key := k.key
    trace := tr }

/-- The framer's step does not look at the scanner, and carries it and the trace along. -/
theorem framerStep_withScanner (k : State) (tr : List Event) (s : State) :
    framerStep (withScanner k tr s) = withScanner k (tr ++ framerStepEvents s) (framerStep s) := by
  match hq : s.fq with
  | [] =>
    have hev : tr ++ framerStepEvents s = tr := by simp [framerStepEvents, hq]
    rw [framerStep_nil hq, framerStep_nil (s := withScanner k tr s) hq, hev]
  | [e] =>
    have hev : tr ++ framerStepEvents s = tr ++ [.fr e] ++ [.doneFramer] := by simp [framerStepEvents, hq]
    rw [framerStep_cons hq, framerStep_cons (s := withScanner k tr s) hq, hev]
    cases e <;> rfl
  | e :: e' :: es =>
    have hev : tr ++ framerStepEvents s = tr ++ [.fr e] := by simp [framerStepEvents, hq]
    rw [framerStep_cons hq, framerStep_cons (s := withScanner k tr s) hq, hev]
    cases e <;> rfl

/-- A sample changes the position and the row by what it read and the row alone. -/
theorem afterSample_of_krow (v : BitVec 4) {s k : State} (h : s.krow = k.krow) :
    afterSample v s = { s with krow := (afterSample v k).krow, kst := (afterSample v k).kst } := by
  simp only [afterSample, h]
  split
  · split <;> simp [← h]
  · simp [← h]

/-- The scanner's step looks at the scanner only, and leaves the rest of the state. -/
theorem scannerStep_withScanner (v : BitVec 4) (k : State) (tr : List Event) (s : State) :
    scannerStep v (withScanner k tr s) = withScanner (scannerStep v k) (tr ++ scannerStepEvents v k) s := by
  have hw : (withScanner k tr s).kst = k.kst := rfl
  cases h : k.kst <;> simp only [scannerStep, scannerStepEvents, hw, h]
  case idle => rw [List.append_nil]
  case sample =>
    rw [afterSample_of_krow v (s := colSample v (withScanner k tr s)) (k := k) rfl,
      afterSample_of_krow v (s := colSample v k) (k := k) rfl]
    rfl
  all_goals rfl

theorem framerStep_scannerStep (v : BitVec 4) (s : State) :
    framerStep (scannerStep v s) =
      withScanner (scannerStep v s) (s.trace ++ scannerStepEvents v s ++ framerStepEvents s) (framerStep s) := by
  have hscan : scannerStep v s = withScanner (scannerStep v s) (s.trace ++ scannerStepEvents v s) s :=
    scannerStep_withScanner v s s.trace s
  conv_lhs => rw [hscan]
  exact framerStep_withScanner _ _ s

theorem scannerStep_framerStep (v : BitVec 4) (s : State) :
    scannerStep v (framerStep s) =
      withScanner (scannerStep v s) (s.trace ++ framerStepEvents s ++ scannerStepEvents v s) (framerStep s) := by
  have hframe : framerStep s = withScanner s (s.trace ++ framerStepEvents s) (framerStep s) :=
    framerStep_withScanner s s.trace s
  conv_lhs => rw [hframe]
  exact scannerStep_withScanner v s _ _

/-! ## The two orders -/

/-- The states agree but for the trace, and each source's projection of the trace is the same. -/
def SameButOrder (s t : State) : Prop :=
  { s with trace := [] } = { t with trace := [] } ∧ ∀ u : EventSource, eventsOf u s.trace = eventsOf u t.trace

theorem SameButOrder.after_endPulses {s t : State} (h : SameButOrder s t) : SameButOrder (endPulses s) (endPulses t) := by
  obtain ⟨hstate, htrace⟩ := h
  exact ⟨congrArg endPulses hstate, htrace⟩

theorem unit_steps_sameButOrder (v : BitVec 4) (s : State) :
    SameButOrder (framerStep (scannerStep v s)) (scannerStep v (framerStep s)) := by
  rw [framerStep_scannerStep, scannerStep_framerStep]
  refine ⟨rfl, fun u => ?_⟩
  have hswap := eventsOf_append_comm u (scannerStepEvents_source v s) (framerStepEvents_source s)
  simp only [withScanner, List.append_assoc, eventsOf_append u s.trace, hswap]

/-! ## The two orders as steps of the machine -/

/-- The scanner does not look at the moves. -/
theorem scannerStep_moves (v : BitVec 4) (s : State) (ms : List Move) :
    scannerStep v { s with moves := ms } = { scannerStep v s with moves := ms } := by
  calc scannerStep v { s with moves := ms }
      = withScanner (scannerStep v s) (s.trace ++ scannerStepEvents v s) { s with moves := ms } :=
        scannerStep_withScanner v s s.trace { s with moves := ms }
    _ = { withScanner (scannerStep v s) (s.trace ++ scannerStepEvents v s) s with moves := ms } := rfl
    _ = { scannerStep v s with moves := ms } := by rw [← scannerStep_withScanner v s s.trace s]; rfl

/-- The framer does not look at the pulses. -/
theorem endPulses_framerStep (s : State) : endPulses (framerStep (endPulses s)) = endPulses (framerStep s) := by
  cases hq : s.fq with
  | nil => rw [framerStep_nil hq, framerStep_nil (s := endPulses s) hq]; rfl
  | cons e rest =>
    rw [framerStep_cons hq, framerStep_cons (s := endPulses s) hq]
    cases e <;> cases rest <;> rfl

/-- The scanner does not look at the pulses. -/
theorem endPulses_scannerStep (v : BitVec 4) (s : State) :
    endPulses (scannerStep v (endPulses s)) = endPulses (scannerStep v s) := by
  have hw : (endPulses s).kst = s.kst := rfl
  cases h : s.kst <;> simp only [scannerStep, hw, h]
  case sample =>
    rw [afterSample_of_krow v (s := colSample v (endPulses s)) (k := s) rfl,
      afterSample_of_krow v (s := colSample v s) (k := s) rfl]
    rfl
  all_goals rfl

theorem step_scanner {s : State} {v : BitVec 4} {ms : List Move} (hm : s.moves = .scanner v :: ms) :
    step s = .next (scannerStep v { endPulses s with moves := ms }) := by
  rw [step_of_fetch_none (by rw [nextMove_of_cons hm]; rfl), nextMove_of_cons hm, takeMove_of_cons hm]
  rfl

theorem step_framer {s : State} {ms : List Move} (hm : s.moves = .framer :: ms) :
    step s = .next (framerStep { endPulses s with moves := ms }) := by
  rw [step_of_fetch_none (by rw [nextMove_of_cons hm]; rfl), nextMove_of_cons hm, takeMove_of_cons hm]
  rfl

/-- The scanner's move, then the framer's. -/
theorem runSteps_scanner_framer (v : BitVec 4) (s : State) (ms : List Move) :
    runSteps 2 { s with moves := .scanner v :: .framer :: ms } =
      .next (framerStep (endPulses (scannerStep v { endPulses s with moves := ms }))) := by
  have hscan : step { s with moves := .scanner v :: .framer :: ms } =
      .next (scannerStep v { endPulses s with moves := .framer :: ms }) := step_scanner rfl
  have hframe : step { scannerStep v (endPulses s) with moves := .framer :: ms } =
      .next (framerStep { endPulses (scannerStep v (endPulses s)) with moves := ms }) := step_framer rfl
  rw [scannerStep_moves] at hscan ⊢
  rw [runSteps_succ_of_next 1 hscan, runSteps_succ_of_next 0 hframe]
  rfl

/-- The framer's move, then the scanner's. -/
theorem runSteps_framer_scanner (v : BitVec 4) (s : State) (ms : List Move) :
    runSteps 2 { s with moves := .framer :: .scanner v :: ms } =
      .next (scannerStep v (endPulses (framerStep { endPulses s with moves := ms }))) := by
  have hframe : step { s with moves := .framer :: .scanner v :: ms } =
      .next (framerStep { endPulses s with moves := .scanner v :: ms }) := step_framer rfl
  have hscan : step { framerStep (endPulses s) with moves := .scanner v :: ms } =
      .next (scannerStep v { endPulses (framerStep (endPulses s)) with moves := ms }) := step_scanner rfl
  rw [framerStep_moves] at hframe ⊢
  rw [runSteps_succ_of_next 1 hframe, runSteps_succ_of_next 0 hscan]
  rfl

end Sys2Proof.Machine

open Sys2Proof.Machine

/-- Settles O56: each step changes its own unit and appends its own events, whose sources differ; the moves and the pulses are
read by neither. -/
theorem unitStepsCommute : Obligations.UnitStepsCommute := by
  intro s v
  obtain ⟨hstate, htrace⟩ := unit_steps_sameButOrder v s
  refine ⟨hstate, htrace, fun ms => ⟨_, _, runSteps_scanner_framer v s ms, runSteps_framer_scanner v s ms, ?_⟩⟩
  have hsame := (unit_steps_sameButOrder v { endPulses s with moves := ms }).after_endPulses
  rw [← endPulses_framerStep (scannerStep v _), ← endPulses_scannerStep v (framerStep _)] at hsame
  exact hsame
end

section
/-! PROOF. Decoder and encoder answer each other: the fields of each word format determine the word, the tables list each byte
with its instruction, and the two readings of a code agree (30_encoding.md R91 to R97, R100, R102, R103, R105). -/

namespace Sys2Proof

open Machine (listed_lookup_mem colon_or_low decodeData_colon FramerCommand)

/-! ## The fields of a format determine the word (R91 to R94) -/

theorem byteField_toNat (w : Word) : (byteField w).toNat = w.toNat % 256 := by
  simp only [byteField, BitVec.extractLsb'_toNat, Nat.shiftRight_eq_div_pow]
  omega

theorem colonField_toNat (w : Word) : (colonField w).toNat = w.toNat / 4096 % 2 := by
  simp only [colonField, BitVec.getLsbD, Nat.toNat_testBit]

theorem opField_eq {w : Word} {k : BitVec 3} (h : w.toNat / 8192 = k.toNat) : opField w = k :=
  BitVec.eq_of_toNat_eq ((opField_toNat w).trans h)

/-- Two words with the same operation and the same operand field are one word. -/
theorem word_eq_of_arg {v w : Word} (hop : opField v = opField w) (harg : argField v = argField w) : v = w := by
  have hop := congrArg BitVec.toNat hop
  have harg := congrArg BitVec.toNat harg
  simp only [opField_toNat, argField_toNat] at hop harg
  exact BitVec.eq_of_toNat_eq (by omega)

/-- Format N: no operand. -/
theorem word_eq_of_bare {v w : Word} (hv : argField v = 0) (hop : w.toNat / 8192 = (opField v).toNat)
    (harg : w.toNat % 8192 = 0) : v = w :=
  word_eq_of_arg (opField_eq hop).symm (hv.trans ((argField_eq_zero w).mpr harg).symm)

/-- Format B: the operand field is the padding and the byte. -/
theorem word_eq_of_byte {v w : Word} {k : BitVec 3} (hv : opField v = k ∧ padField v = 0 ∧ byteField v = byteField w)
    (hop : w.toNat / 8192 = k.toNat) (hpad : w.toNat / 256 % 32 = 0) : v = w := by
  obtain ⟨hvop, hvpad, hbyte⟩ := hv
  refine word_eq_of_arg (hvop.trans (opField_eq hop).symm) (BitVec.eq_of_toNat_eq ?_)
  have hvpad := (padField_eq_zero v).mp hvpad
  have hbyte := congrArg BitVec.toNat hbyte
  simp only [byteField_toNat, argField_toNat] at hbyte ⊢
  omega

/-- Format R: the operand field is the colon bit, the minutes and the seconds. -/
theorem word_eq_of_render {v w : Word} {k : BitVec 3}
    (hv : opField v = k ∧ minutesField v = minutesField w ∧ secondsField v = secondsField w ∧ colonField v = colonField w)
    (hop : w.toNat / 8192 = k.toNat) : v = w := by
  obtain ⟨hvop, hmin, hsec, hcolon⟩ := hv
  refine word_eq_of_arg (hvop.trans (opField_eq hop).symm) (BitVec.eq_of_toNat_eq ?_)
  have hmin := congrArg BitVec.toNat hmin
  have hsec := congrArg BitVec.toNat hsec
  have hcolon := congrArg Bool.toNat hcolon
  simp only [minutesField_toNat, secondsField_toNat, colonField_toNat, argField_toNat] at hmin hsec hcolon ⊢
  omega

/-! ## The answers of the word decoder -/

theorem of_ite_ok {p : Prop} [Decidable p] {i j : Instr} {v : Verdict}
    (h : (if p then .ok j else v) = .ok i) (hv : v ≠ .ok i) : p ∧ j = i := by
  split at h
  · rename_i hp
    exact ⟨hp, Verdict.ok.inj h⟩
  · exact absurd h hv

theorem ite_ok_eq_reserved {p : Prop} [Decidable p] {i : Instr} :
    (if p then Verdict.ok i else .reserved) = .reserved ↔ ¬p := by
  split <;> simp [*]

/-- A word that decodes passed every test of its operation's format, so its fields are those of the encoder's word. -/
theorem encode_of_decodeWord {w : Word} {i : Instr} (h : decodeWord w = .ok i) :
    encode i = .word w ∧ i.wellFormed = true := by
  rcases decodeWord_cases w with ⟨hop, hd⟩ | ⟨hop, hd⟩ | ⟨hop, hd⟩ | ⟨hop, hd⟩ | ⟨hop, hd⟩ | ⟨hop, hd⟩ | ⟨_, hd⟩ <;>
    rw [hd] at h
  · obtain ⟨harg, rfl⟩ := of_ite_ok h nofun
    exact ⟨congrArg Code.word (word_eq_of_bare (v := startWord) rfl hop harg), rfl⟩
  · obtain ⟨harg, rfl⟩ := of_ite_ok h nofun
    exact ⟨congrArg Code.word (word_eq_of_bare (v := stopWord) rfl hop harg), rfl⟩
  · obtain ⟨hpad, rfl⟩ := of_ite_ok h nofun
    exact ⟨congrArg Code.word (word_eq_of_byte (wrbyteWord_fields _) hop hpad), rfl⟩
  · obtain ⟨hpad, rfl⟩ := of_ite_ok h nofun
    exact ⟨congrArg Code.word (word_eq_of_byte (sendframeWord_fields _) hop hpad), rfl⟩
  · obtain ⟨hdomain, rfl⟩ := of_ite_ok h nofun
    refine ⟨congrArg Code.word (word_eq_of_render (renderWord_fields _ _ _) hop), ?_⟩
    simpa [Instr.wellFormed, timeInDomain, minutesField_toNat, secondsField_toNat] using hdomain
  · obtain ⟨harg, rfl⟩ := of_ite_ok h nofun
    exact ⟨congrArg Code.word (word_eq_of_bare (v := scanWord) rfl hop harg), rfl⟩
  · cases h

/-- R96 over the word as a number. -/
theorem decodeWord_eq_reserved_iff (w : Word) :
    decodeWord w = .reserved ↔
      (w.toNat / 8192 = 0 ∨ w.toNat / 8192 = 7 ∨
        ((w.toNat / 8192 = 1 ∨ w.toNat / 8192 = 2 ∨ w.toNat / 8192 = 6) ∧ w.toNat % 8192 ≠ 0) ∨
        ((w.toNat / 8192 = 3 ∨ w.toNat / 8192 = 4) ∧ w.toNat / 256 % 32 ≠ 0)) := by
  rcases decodeWord_cases w with ⟨hop, hd⟩ | ⟨hop, hd⟩ | ⟨hop, hd⟩ | ⟨hop, hd⟩ | ⟨hop, hd⟩ | ⟨hop, hd⟩ | ⟨hop, hd⟩ <;>
    rw [hd]
  case inr.inr.inr.inr.inl =>
    refine iff_of_false ?_ (by omega)
    split <;> exact nofun
  case inr.inr.inr.inr.inr.inr => exact iff_of_true rfl (by omega)
  all_goals
    rw [ite_ok_eq_reserved]
    omega

/-! ## The byte tables -/

theorem encode_busRows : ∀ r ∈ busRows, encode r.2 = .bus r.1 ∧ r.2.wellFormed = true := by decide

theorem encode_segRows : ∀ r ∈ segRows, encode r.2 = .data r.1 ∧ r.2.wellFormed = true := by decide

theorem encode_keyRows : ∀ r ∈ keyRows, encode r.2 = .key r.1 ∧ r.2.wellFormed = true := by decide

theorem encode_of_decodeData {b : Byte} {i : Instr} (h : decodeData b = .ok i) :
    encode i = .data b ∧ i.wellFormed = true := by
  cases hbit : b.getLsbD 7 with
  | true =>
    rw [decodeData_colon hbit] at h
    cases h
    exact ⟨congrArg Code.data (colon_or_low b hbit), rfl⟩
  | false =>
    rw [decodeData, hbit] at h
    exact encode_segRows _ (listed_lookup_mem h)

/-- Setting the colon bit over seven bits keeps those bits. -/
theorem colon_bit_and_low : ∀ low : BitVec 7, (0x80 ||| low.zeroExtend 8 : Byte).getLsbD 7 = true ∧
    (0x80 ||| low.zeroExtend 8 : Byte).extractLsb' 0 7 = low := by decide

theorem decodeData_colonBit (low : BitVec 7) : decodeData (0x80 ||| low.zeroExtend 8) = .ok (.colonBit low) := by
  obtain ⟨hbit, hlow⟩ := colon_bit_and_low low
  rw [decodeData_colon hbit, hlow]

/-! ## The answers to the encoder's codes -/

theorem decodeWord_wrbyteWord (b : Byte) : decodeWord (wrbyteWord b) = .ok (.wrbyte b) :=
  FramerCommand.decodeWord_eq (df := ⟨0, 0, 0, 0⟩) ⟨rfl, rfl, rfl, nofun⟩

theorem decodeWord_sendframeWord (b : Byte) : decodeWord (sendframeWord b) = .ok (.sendframe b) :=
  FramerCommand.decodeWord_eq (df := ⟨0, 0, 0, 0⟩) ⟨rfl, rfl, rfl, nofun⟩

/-- The operands are read back from their fields; every other code is fixed. -/
theorem decode_encode {i : Instr} (hw : i.wellFormed = true) : decode (encode i) = .ok i := by
  cases i with
  | wrbyte b => exact decodeWord_wrbyteWord b
  | sendframe b => exact decodeWord_sendframeWord b
  | render m s c => exact (decodeWord_renderWord m s c).trans (if_pos hw)
  | colonBit low => exact decodeData_colonBit low
  | start | stop | scan => rfl
  | busDataAutoinc | busAddr0 | busDisplayOn => rfl
  | seg0 | seg1 | seg2 | seg3 | seg4 | seg5 | seg6 | seg7 | seg8 | seg9 => rfl
  | key1 | key2 | key3 | keyA | key4 | key5 | key6 | keyB | key7 | key8 | key9 | keyC | keyStar | key0 | keyHash | keyD
    | keyNone => rfl

/-! ## A presented code that is no instruction -/

namespace Machine

theorem step_of_noInstr {s t : State} {c : Code} (hf : fetch (nextMove s) (takeMove s) = some (c, t))
    (hd : ∀ i, decode c ≠ .ok i) : step s = noInstr (decode c) c t := by
  cases hv : decode c with
  | ok i => exact absurd hv (hd i)
  | reserved | outOfDomain | unlisted => simp only [step, hf, hv]

end Machine

end Sys2Proof

open Sys2Proof Sys2Proof.Machine

/-- Settles O1: the fields of the encoder's word are the operands, and each table lists the encoder's byte. -/
theorem decodeOfEncode : Obligations.DecodeOfEncode := fun _ => decode_encode

/-- Settles O2: in each space the decoder's conditions fix every bit of the code. -/
theorem encodeOfDecode : Obligations.EncodeOfDecode := by
  intro c i h
  cases c with
  | word w => exact encode_of_decodeWord h
  | bus b => exact encode_busRows _ (listed_lookup_mem h)
  | data b => exact encode_of_decodeData h
  | key b => exact encode_keyRows _ (listed_lookup_mem h)

/-- Settles O4: by the decoder's answer for each operation field; the step of a reserved word is its refusal. -/
theorem reservedWordsRefused : Obligations.ReservedWordsRefused := by
  refine ⟨decodeWord_eq_reserved_iff, fun s t w hf hd => ?_⟩
  have hstep := step_of_noInstr hf fun i hok => nomatch hd.symm.trans hok
  rwa [hd] at hstep
end

section
/-! PROOF. SHOW written out and RENDER have the same three frames (30_encoding.md R108, 41_framer_commands.md R147). -/

namespace Sys2Proof.Machine

theorem expandProgram_append (is js : List Instr) : expandProgram (is ++ js) = expandProgram is ++ expandProgram js := by
  induction is with
  | nil => rfl
  | cons i is ih => simp [expandProgram, ih]

theorem expandProgram_sendframe (b : Byte) : expandProgram [.sendframe b] = frame [b] := by
  simp [expandProgram, expand, expandSendframe, frame, expandBytes]

theorem expandProgram_burst0 (d : Four Byte) : expandProgram (asmBurst0 d) = frame (0xC0 :: fourList d) := by
  simp [asmBurst0, expandProgram, expand, frame, expandBytes, fourList]

theorem expandProgram_show (d : Four Byte) : expandProgram (asmShow d) = expandRefresh d := by
  have hparts : expandProgram (asmShow d) = frame [0x40] ++ frame (0xC0 :: fourList d) ++ frame [0x8F] := by
    rw [asmShow, expandProgram_append, expandProgram_append, expandProgram_burst0, asmAutoinc, asmDispon,
      expandProgram_sendframe, expandProgram_sendframe]
  rw [hparts]
  simp [expandRefresh, refreshFrames, expandFrames]

end Sys2Proof.Machine

open Sys2Proof.Machine

/-- Settles O24: the three parts of SHOW are, frame by frame, the three frames of RENDER. -/
theorem showEqualsRender : Obligations.ShowEqualsRender := by
  intro m sec c d hd
  have hrender : expand (.render m sec c) = expandRefresh d := by simp [expand, hd]
  exact ⟨rfl, (expandProgram_show d).trans hrender.symm⟩
end

section
/-! PROOF. Every pin write of the framer is followed by its one settle wait (40_framer_primitives.md R129). -/

namespace Sys2Proof.Machine

/-- A list of pin writes, each followed by one settle wait. -/
def SettledWrites (es : List FrEvent) : Prop :=
  ∃ ws : List (Line × Bool), es = ws.flatMap fun p => [.write p.1 p.2, .settle]

theorem settledWrites_nil : SettledWrites [] := ⟨[], rfl⟩

theorem SettledWrites.append {es fs : List FrEvent} (he : SettledWrites es) (hf : SettledWrites fs) :
    SettledWrites (es ++ fs) := by
  obtain ⟨ws, rfl⟩ := he
  obtain ⟨vs, rfl⟩ := hf
  exact ⟨ws ++ vs, List.flatMap_append.symm⟩

/-- The conditions and slots are the phases of 10_state.md R30. -/
theorem settledWrites_phase (bit : Bool) (p : Phase) : SettledWrites (phaseEvents bit p) := ⟨phaseWrites bit p, rfl⟩

theorem settledWrites_start : SettledWrites expandStart := settledWrites_phase false .start

theorem settledWrites_stop : SettledWrites expandStop := settledWrites_phase false .stop

theorem settledWrites_wrbyte (b : Byte) : SettledWrites (expandWrbyte b) := by
  have slot : ∀ v, SettledWrites (bitSlot v) := fun v => settledWrites_phase v .byte
  have ack : SettledWrites ackSlot := settledWrites_phase false .ack
  exact ((((((((slot _).append (slot _)).append (slot _)).append (slot _)).append (slot _)).append (slot _)).append
    (slot _)).append (slot _)).append ack

theorem settledWrites_bytes (bs : List Byte) : SettledWrites (expandBytes bs) := by
  induction bs with
  | nil => exact settledWrites_nil
  | cons b bs ih => exact (settledWrites_wrbyte b).append ih

theorem settledWrites_frame (bs : List Byte) : SettledWrites (frame bs) :=
  (settledWrites_start.append (settledWrites_bytes bs)).append settledWrites_stop

theorem settledWrites_frames (fs : List (List Byte)) : SettledWrites (expandFrames fs) := by
  induction fs with
  | nil => exact settledWrites_nil
  | cons f fs ih => exact (settledWrites_frame f).append ih

theorem settledWrites_expand (i : Instr) : SettledWrites (expand i) := by
  cases i with
  | start => exact settledWrites_start
  | stop => exact settledWrites_stop
  | wrbyte b => exact settledWrites_wrbyte b
  | sendframe b => exact (settledWrites_start.append (settledWrites_wrbyte b)).append settledWrites_stop
  | render m s c =>
    rw [expand]
    cases digits m s c with
    | none => exact settledWrites_nil
    | some df => exact settledWrites_frames (refreshFrames df)
  | _ => exact settledWrites_nil

end Sys2Proof.Machine

open Sys2Proof.Machine

/-- Settles O21: each phase is pin writes with their waits, and every command is made of phases. -/
theorem oneWaitAfterEveryWrite : Obligations.OneWaitAfterEveryWrite := settledWrites_expand
end

section
/-! PROOF. Where DIO changes while CLK stays 1, read one framer event at a time: a fall at each start condition, a rise at
each stop condition, and nothing inside a byte (20_memory.md R83). -/

namespace Sys2Proof.Machine

/-! ## One event -/

/-- The values DIO takes while CLK stays 1 in the waveform that the events `es` make from the levels `p`. -/
def highChanges (p : Bool × Bool) (es : List FrEvent) : List Bool := highDioChanges p (waveTail p es)

@[simp] theorem highChanges_nil (p : Bool × Bool) : highChanges p [] = [] := rfl

/-- An event that leaves the levels adds nothing to the waveform, and two equal levels show no change. -/
theorem highChanges_cons (p : Bool × Bool) (e : FrEvent) (es : List FrEvent) :
    highChanges p (e :: es) =
      (if p.1 && (levelsAfter p e).1 && p.2 != (levelsAfter p e).2 then [(levelsAfter p e).2] else []) ++
        highChanges (levelsAfter p e) es := by
  by_cases h : levelsAfter p e = p
  · simp [highChanges, waveTail, h]
  · simp only [highChanges, waveTail, if_neg h, highDioChanges]
    split <;> rfl

theorem highChanges_append (p : Bool × Bool) (es fs : List FrEvent) :
    highChanges p (es ++ fs) = highChanges p es ++ highChanges (finalLevels p es) fs := by
  induction es generalizing p with
  | nil => rfl
  | cons e es ih => rw [List.cons_append, highChanges_cons, ih, ← List.append_assoc, ← highChanges_cons, finalLevels]

/-! ## A frame -/

theorem finalLevels_start (p : Bool × Bool) : finalLevels p expandStart = (true, false) := rfl

theorem finalLevels_stop (p : Bool × Bool) : finalLevels p expandStop = (true, true) := rfl

theorem finalLevels_frame (p : Bool × Bool) (bs : List Byte) : finalLevels p (frame bs) = (true, true) := by
  rw [frame, finalLevels_append, finalLevels_stop]

/-- A bit slot sets DIO while CLK is 0. -/
theorem highChanges_bitSlot (d v : Bool) : highChanges (true, d) (bitSlot v) = [] := by
  simp [bitSlot, settled, highChanges_cons, levelsAfter]

theorem highChanges_ackSlot (d : Bool) : highChanges (true, d) ackSlot = [] := by
  simp [ackSlot, settled, highChanges_cons, levelsAfter]

theorem highChanges_wrbyte (d : Bool) (b : Byte) : highChanges (true, d) (expandWrbyte b) = [] := by
  simp only [expandWrbyte, highChanges_append, finalLevels_append, finalLevels_bitSlot, highChanges_bitSlot,
    highChanges_ackSlot, List.append_nil]

theorem highChanges_bytes (d : Bool) (bs : List Byte) : highChanges (true, d) (expandBytes bs) = [] := by
  induction bs generalizing d with
  | nil => rfl
  | cons b bs ih => rw [expandBytes, highChanges_append, highChanges_wrbyte, finalLevels_wrbyte, ih, List.append_nil]

/-- From an idle bus DIO falls at the start condition. -/
theorem highChanges_start : highChanges (true, true) expandStart = [false] := by decide

/-- From CLK = 1 DIO rises at the stop condition, which first brings it to 0 while CLK is 0. -/
theorem highChanges_stop (d : Bool) : highChanges (true, d) expandStop = [true] := by
  simp [expandStop, settled, highChanges_cons, levelsAfter]

theorem highChanges_frame (bs : List Byte) : highChanges (true, true) (frame bs) = [false, true] := by
  obtain ⟨_, d, hd⟩ := monitorOver_bytes [] [] false bs
  simp only [frame, highChanges_append, finalLevels_append, finalLevels_start, highChanges_start, highChanges_bytes, hd,
    highChanges_stop, List.append_nil, List.cons_append, List.nil_append]

theorem highChanges_frames (fs : List (List Byte)) :
    highChanges (true, true) (expandFrames fs) = fs.flatMap fun _ => [false, true] := by
  induction fs with
  | nil => rfl
  | cons f fs ih => rw [expandFrames, highChanges_append, highChanges_frame, finalLevels_frame, ih, List.flatMap_cons]

end Sys2Proof.Machine

open Sys2Proof.Machine

/-- Settles O31: each frame begins and ends on an idle bus, and its bytes change DIO only while CLK is 0. -/
theorem dioStableWhileClockHigh : Obligations.DioStableWhileClockHigh := highChanges_frames
end

section
/-! PROOF. One step of the framer, by the head of its queue, and the run that performs the whole queue
(40_framer_primitives.md R127, R128). -/

namespace Sys2Proof.Machine

/-! ## One step -/

theorem framerStep_levels {s : State} {e : FrEvent} {rest : List FrEvent} (hq : s.fq = e :: rest) :
    levels (framerStep s) = levelsAfter (levels s) e := by
  obtain ⟨_, _, hlevels, _⟩ := performFr_frame e s
  rw [framerStep_cons hq, ← hlevels]
  rcases framerAfter_cases rest (performFr e s) with ⟨_, h⟩ | ⟨_, h⟩ <;> rw [h] <;> rfl

/-- A settle wait shows the observers nothing. -/
theorem framerStep_settle {s : State} {rest : List FrEvent} (hq : s.fq = .settle :: rest) :
    (framerStep s).mon = s.mon ∧ (framerStep s).sink = s.sink := by
  rw [framerStep_cons hq]
  rcases framerAfter_cases rest (performFr .settle s) with ⟨_, h⟩ | ⟨_, h⟩ <;> rw [h] <;> exact ⟨rfl, rfl⟩

/-- A step that leaves events in the queue records its event and completes nothing. -/
theorem framerStep_of_more {s : State} {e : FrEvent} {rest : List FrEvent} (hq : s.fq = e :: rest) (hr : rest ≠ []) :
    (framerStep s).trace = s.trace ++ [.fr e] ∧ (framerStep s).fBusy = s.fBusy ∧
      pulsePart (framerStep s) = pulsePart s ∧ (framerStep s).fNoted = s.fNoted := by
  obtain ⟨_, htrace, _, _, _, _, _, hbusy, hpulse, hnoted⟩ := performFr_frame e s
  rw [framerStep_cons hq]
  rcases framerAfter_cases rest (performFr e s) with ⟨_, h⟩ | ⟨hnil, _⟩
  · rw [h]
    exact ⟨htrace, hbusy, hpulse, hnoted⟩
  · exact absurd hnil hr

/-- The step of the last event completes the command. -/
theorem framerStep_of_last {s : State} {e : FrEvent} (hq : s.fq = [e]) :
    (framerStep s).trace = s.trace ++ [.fr e, .doneFramer] ∧ (framerStep s).fBusy = false ∧
      pulsePart (framerStep s) = (true, s.kDone) ∧ (framerStep s).fNoted = true := by
  obtain ⟨_, htrace, _⟩ := performFr_frame e s
  have hafter : (framerStep s).trace = (performFr e s).trace ++ [.doneFramer] := by rw [framerStep_cons hq]; rfl
  obtain ⟨_, _, _, _, ⟨hr, _⟩ | ⟨_, hbusy, hdone, hnoted⟩⟩ := framerStep_registers hq
  · exact absurd rfl hr
  · refine ⟨by rw [hafter, htrace, List.append_assoc]; rfl, hbusy, ?_, hnoted⟩
    rw [pulsePart, hdone, framerStep_kDone]

/-! ## What a step reads -/

/-- What a framer event leaves of the framer, in terms of the framer. -/
theorem performFr_framerPart (e : FrEvent) (s : State) :
    framerPart (performFr e s) =
      ((levelsAfter (levels s) e).1, (levelsAfter (levels s) e).2, s.fcmd, s.shr, s.df, s.fq, s.fBusy, s.fNoted, s.ctr,
        monitorEdge (levels s) (levelsAfter (levels s) e) s.mon) := by
  rw [← performFr_mon]
  cases e <;> rfl

theorem performFr_framerPart_congr (e : FrEvent) {s t : State} (h : framerPart t = framerPart s) :
    framerPart (performFr e t) = framerPart (performFr e s) := by
  obtain ⟨_, _, hcmd, hshr, hdf, hfq, hbusy, hnoted, hctr, hmon⟩ := (framerPart_eq_iff s t).mp h
  simp only [performFr_framerPart, levels_of_framerPart h, hcmd, hshr, hdf, hfq, hbusy, hnoted, hctr, hmon]

theorem framerAfter_framerPart_congr (rest : List FrEvent) {s t : State} (h : framerPart t = framerPart s) :
    framerPart (framerAfter rest t) = framerPart (framerAfter rest s) := by
  obtain ⟨hclk, hdio, hcmd, hshr, hdf, _, hbusy, hnoted, hctr, hmon⟩ := (framerPart_eq_iff s t).mp h
  rcases framerAfter_cases rest s with ⟨hr, hs⟩ | ⟨hr, hs⟩ <;>
    rcases framerAfter_cases rest t with ⟨hr', ht⟩ | ⟨hr', ht⟩
  · rw [hs, ht]
    simp only [framerPart, hclk, hdio, hcmd, hshr, hdf, hbusy, hnoted, hctr, hmon]
  · exact absurd hr' hr
  · exact absurd hr hr'
  · rw [hs, ht]
    simp only [framerPart, hclk, hdio, hcmd, hshr, hdf, hctr, hmon]

theorem framerStep_framerPart_congr {s t : State} (h : framerPart t = framerPart s) :
    framerPart (framerStep t) = framerPart (framerStep s) := by
  obtain ⟨_, _, _, _, _, hfq, _⟩ := (framerPart_eq_iff s t).mp h
  cases hq : s.fq with
  | nil => rwa [framerStep_nil hq, framerStep_nil (hfq.trans hq)]
  | cons e rest =>
    rw [framerStep_cons hq, framerStep_cons (hfq.trans hq)]
    exact framerAfter_framerPart_congr rest (performFr_framerPart_congr e h)

/-- The pulse of a framer step is that of the last event. -/
theorem framerStep_fDone_iff {s : State} (hd : s.fDone = false) :
    (framerStep s).fDone = true ↔ ∃ e, s.fq = [e] := by
  cases hq : s.fq with
  | nil => simp [framerStep_nil hq, hd]
  | cons e rest =>
    obtain ⟨_, _, _, _, ⟨hr, _, hdone⟩ | ⟨hr, _, hdone, _⟩⟩ := framerStep_registers hq
    · simp [hdone, hd, hr]
    · simp [hdone, hr]

/-! ## The run of a queue -/

theorem outsideFramer_trans {s t u : State} (hst : outsideFramer s t) (htu : outsideFramer t u) : outsideFramer s u := by
  obtain ⟨hscan, hhost, hinput, hdm, hsink⟩ := hst
  obtain ⟨hscan', hhost', hinput', hdm', hsink'⟩ := htu
  exact ⟨hscan'.trans hscan, hhost'.trans hhost, hinput'.trans hinput, hdm'.trans hdm, hsink'.trans (by rw [hsink])⟩

/-- `u` is `s` after the framer has performed the events `es` to the end of its command. -/
def QueueDone (es : List FrEvent) (s u : State) : Prop :=
  u.trace = s.trace ++ es.map .fr ++ [.doneFramer] ∧ levels u = finalLevels (levels s) es ∧ u.fq = [] ∧
    u.fBusy = false ∧ pulsePart u = (true, false) ∧ u.fNoted = true ∧ outsideFramer s u

theorem framerRun_queueDone {s : State} {e : FrEvent} {rest : List FrEvent} (hq : s.fq = e :: rest) :
    QueueDone (e :: rest) s (framerRun (e :: rest).length s) := by
  induction rest generalizing s e with
  | nil =>
    have hq : (endPulses s).fq = [e] := hq
    obtain ⟨htrace, hbusy, hpulse, hnoted⟩ := framerStep_of_last hq
    exact ⟨htrace.trans (List.append_assoc s.trace [.fr e] [.doneFramer]).symm, framerStep_levels hq,
      (framerStep_registers hq).1, hbusy, hpulse, hnoted, framerStep_frame (endPulses s)⟩
  | cons f rest ih =>
    have hq : (endPulses s).fq = e :: f :: rest := hq
    obtain ⟨hstep, _⟩ := framerStep_of_more hq (List.cons_ne_nil f rest)
    obtain ⟨htrace, hlevels, hfq, hbusy, hpulse, hnoted, hout⟩ := ih (framerStep_registers hq).1
    refine ⟨htrace.trans ?_, hlevels.trans ?_, hfq, hbusy, hpulse, hnoted,
      outsideFramer_trans (framerStep_frame (endPulses s)) hout⟩
    · rw [hstep]
      simp
    · rw [framerStep_levels hq]
      rfl

/-! ## The length of a queue -/

theorem length_expandRefresh (df : Four Byte) : (expandRefresh df).length = 406 := by
  simp [expandRefresh, refreshFrames, expandFrames, length_frame, fourList]

/-- RENDER has the longest expansion. -/
theorem length_expand_le (i : Instr) : (expand i).length ≤ 406 := by
  cases i with
  | start => exact (by decide : 6 ≤ 406)
  | stop => exact (by decide : 8 ≤ 406)
  | wrbyte b => exact (by decide : 52 ≤ 406)
  | sendframe b => exact (by decide : 66 ≤ 406)
  | render m s c =>
    rw [expand]
    cases digits m s c with
    | none => exact Nat.zero_le _
    | some df => exact (length_expandRefresh df).le
  | _ => exact Nat.zero_le _

theorem length_expandWord_le (w : Word) : (expandWord w).length ≤ 406 := by
  rw [expandWord]
  cases verdictInstr (decodeWord w) with
  | none => exact Nat.zero_le _
  | some i => exact length_expand_le i

theorem length_fq_le {s : State} (hs : FramerInv s) : s.fq.length ≤ 406 := by
  obtain ⟨hbusy, hsuffix⟩ := hs
  by_cases hq : s.fq = []
  · simp [hq]
  · exact (hsuffix (hbusy.mpr hq)).length_le.trans (length_expandWord_le s.fcmd)

end Sys2Proof.Machine

open Sys2Proof.Machine

/-- Settles O16: by the head of the queue, and by whether it is the last event. -/
theorem framerStepPerformsHead : Obligations.FramerStepPerformsHead := by
  refine ⟨fun s => framerStep_nil, fun s v rest hq => ?_, fun s v rest hq => ?_, fun s rest hq => ?_,
    fun s e rest hq => ?_⟩
  · exact Prod.mk.inj (framerStep_levels hq)
  · exact Prod.mk.inj (framerStep_levels hq)
  · exact ⟨framerStep_levels hq, framerStep_settle hq⟩
  · obtain ⟨hfq, hcmd, hdf, _⟩ := framerStep_registers hq
    exact ⟨hfq, framerStep_frame s, hcmd, hdf, framerStep_of_more hq, fun hr => framerStep_of_last (hr ▸ hq)⟩

/-- Settles O17: by induction on the queue; an invariant queue is a suffix of a command's expansion. -/
theorem framerRunCompletes : Obligations.FramerRunCompletes := by
  refine ⟨fun s hne => ?_, fun s => length_fq_le⟩
  obtain ⟨e, rest, hq⟩ := List.exists_cons_of_ne_nil hne
  rw [hq]
  exact framerRun_queueDone hq

/-- Settles O25: an event and what follows it read and write the framer's part; the pulse is up when the queue had one
event. -/
theorem framerIgnoresTheRest : Obligations.FramerIgnoresTheRest := by
  intro s u h
  obtain ⟨_, _, _, _, _, hfq, _⟩ := (framerPart_eq_iff u s).mp h
  refine ⟨framerStep_framerPart_congr h, Bool.eq_iff_iff.mpr ?_⟩
  rw [framerStep_fDone_iff (endPulses_fDone s), framerStep_fDone_iff (endPulses_fDone u), endPulses_fq, endPulses_fq, hfq]
end

section
/-! PROOF. The acceptance of a framer command by an idle framer, and a command for a busy unit (40_framer_primitives.md R120,
42_keypad_scanner.md R161). -/

namespace Sys2Proof.Machine

/-! ## Acceptance -/

/-- A well-formed framer command is presented to the framer with its word, its events and its DigitFrame, which is the old
one but for RENDER. -/
theorem exec_framer_presents {i : Instr} (s : State) (hw : i.wellFormed = true) (hc : i.consumer = .framer) :
    ∃ w df, encode i = .word w ∧ exec i s = acceptFramer w (expand i) df s ∧
      (df = s.df ∨ ∃ m sec c, i = .render m sec c ∧ digits m sec c = some df) := by
  cases i with
  | start => exact ⟨startWord, s.df, rfl, rfl, .inl rfl⟩
  | stop => exact ⟨stopWord, s.df, rfl, rfl, .inl rfl⟩
  | wrbyte b => exact ⟨wrbyteWord b, s.df, rfl, rfl, .inl rfl⟩
  | sendframe b => exact ⟨sendframeWord b, s.df, rfl, rfl, .inl rfl⟩
  | render m sec c =>
    rcases execRender_cases m sec c s with ⟨hout, _⟩ | ⟨df, _, hd, hx⟩
    · cases hw.symm.trans hout
    · have hes : expand (.render m sec c) = expandRefresh df := by simp [expand, hd]
      exact ⟨renderWord m sec c, df, rfl, hx.trans (by rw [hes]), .inr ⟨m, sec, c, rfl, hd⟩⟩
  | _ => cases hc

theorem acceptFramer_of_idle {s : State} (hb : s.fBusy = false) (w : Word) (es : List FrEvent) (df : Four Byte) :
    acceptFramer w es df s = .next (loadFramer w es df s) := by simp [acceptFramer, hb]

theorem acceptFramer_of_busy {s : State} (hb : s.fBusy = true) (w : Word) (es : List FrEvent) (df : Four Byte) :
    acceptFramer w es df s = .next s := if_pos hb

/-- What an acceptance leaves: every pin, observer and pulse, and everything outside the framer. -/
theorem loadFramer_frame (w : Word) (es : List FrEvent) (df : Four Byte) (s : State) :
    levels (loadFramer w es df s) = levels s ∧ (loadFramer w es df s).mon = s.mon ∧
      outsideFramer s (loadFramer w es df s) ∧ (loadFramer w es df s).sink = s.sink ∧
      pulsePart (loadFramer w es df s) = pulsePart s :=
  ⟨rfl, rfl, ⟨rfl, rfl, rfl, rfl, rfl⟩, rfl, rfl⟩

/-! ## SHR at acceptance -/

/-- Of the accepted commands only WRBYTE begins inside a byte. -/
theorem counterStart_shr {w : Word} (hop : opField w ≠ 3) (df : Four Byte) (shr : Byte) :
    (counterStart w df shr).2 = shr := by
  have hop : (opField w).toNat ≠ 3 := fun h => hop (BitVec.eq_of_toNat_eq h)
  unfold counterStart
  split
  case h_3 h => exact absurd h hop
  all_goals rfl

theorem counterStart_wrbyteWord (b : Byte) (df : Four Byte) (shr : Byte) :
    (counterStart (wrbyteWord b) df shr).2 = b := by
  obtain ⟨hop, _, hbyte⟩ := wrbyteWord_fields b
  simp [counterStart, frameBytes, hop, hbyte, enterByte]

/-- The operation field is 3 in the word of WRBYTE only. -/
theorem opField_ne_three {i : Instr} {w : Word} (hc : i.consumer = .framer) (hw : encode i = .word w)
    (hi : ∀ b, i ≠ .wrbyte b) : opField w ≠ 3 := by
  cases i with
  | start => cases hw; decide
  | stop => cases hw; decide
  | wrbyte b => exact absurd rfl (hi b)
  | sendframe b => cases hw; simp [sendframeWord_fields b]
  | render m sec c => cases hw; simp [renderWord_fields m sec c]
  | _ => cases hc

/-! ## A busy unit -/

theorem exec_scanner_busy {i : Instr} {s : State} (hc : i.consumer = .scanner) (hb : s.kBusy = true) :
    exec i s = .next s := by
  cases i with
  | scan => exact if_pos hb
  | _ => cases hc

/-- The unit that executes `i` is performing a command. -/
def UnitBusy (i : Instr) (s : State) : Prop :=
  (i.consumer = .framer ∧ s.fBusy = true) ∨ (i.consumer = .scanner ∧ s.kBusy = true)

theorem exec_of_unitBusy {i : Instr} {s : State} (hw : i.wellFormed = true) (hb : UnitBusy i s) : exec i s = .next s := by
  rcases hb with ⟨hc, hb⟩ | ⟨hc, hb⟩
  · obtain ⟨w, df, _, hx, _⟩ := exec_framer_presents s hw hc
    exact hx.trans (acceptFramer_of_busy hb w (expand i) df)
  · exact exec_scanner_busy hc hb

theorem ready_of_unitBusy {i : Instr} {s : State} (hb : UnitBusy i s) : ready i s = false := by
  rcases hb with ⟨hc, hb⟩ | ⟨hc, hb⟩ <;> simp [ready, hc, fReady, kReady, hb]

theorem step_of_decoded {s t : State} {c : Code} {i : Instr} (hf : fetch (nextMove s) (takeMove s) = some (c, t))
    (hd : decode c = .ok i) : step s = exec i (presented i (takeMove s) t) := by
  simp only [step, hf, hd]

theorem step_of_unitBusy {s t : State} {w : Word} {i : Instr} (hf : fetch (nextMove s) (takeMove s) = some (.word w, t))
    (hd : decode (.word w) = .ok i) (hb : UnitBusy i s) : step s = .next (takeMove s) := by
  have hb : UnitBusy i (takeMove s) := by simpa only [UnitBusy, takeMove_fBusy, takeMove_kBusy] using hb
  have hstay : presented i (takeMove s) t = takeMove s := by simp [presented, ready_of_unitBusy hb]
  rw [step_of_decoded hf hd, hstay]
  exact exec_of_unitBusy (encode_of_decodeWord hd).2 hb

end Sys2Proof.Machine

open Sys2Proof Sys2Proof.Machine

/-- Settles O14: every framer command is presented with its word and its events, and an idle framer loads them. -/
theorem framerAcceptance : Obligations.FramerAcceptance := by
  intro i s hw hc hb
  obtain ⟨w, df, he, hx, hdf⟩ := exec_framer_presents s hw hc
  obtain ⟨hlevels, hmon, hout, hsink, hpulse⟩ := loadFramer_frame w (expand i) df s
  refine ⟨_, w, hx.trans (acceptFramer_of_idle hb _ _ _), he, rfl, rfl, expand_ne_nil hw hc, rfl, rfl,
    hlevels, hmon, hout, hsink, hpulse, rfl, fun hi => ?_, fun hi => counterStart_shr (opField_ne_three hc he hi) df s.shr⟩
  rcases hdf with rfl | ⟨m, sec, c, rfl, _⟩
  · rfl
  · exact absurd rfl (hi m sec c)

/-- Settles O15: a busy unit is not ready, so the word is not taken from the port, and its instruction changes nothing. -/
theorem busyUnitLeavesCommandWaiting : Obligations.BusyUnitLeavesCommandWaiting :=
  ⟨fun _ _ => exec_of_unitBusy, fun _ _ _ _ hf hd hb => ⟨step_of_unitBusy hf hd hb, cmdPort_of_fetch_word hf⟩⟩
end

section
/-! PROOF. A framer command from its acceptance to its last event: the trace, the levels, the registers and the frame
(40_framer_primitives.md R120 to R128). -/

namespace Sys2Proof.Machine

/-! ## The registers along a run -/

theorem framerStep_command (s : State) : (framerStep s).fcmd = s.fcmd ∧ (framerStep s).df = s.df := by
  cases hq : s.fq with
  | nil => rw [framerStep_nil hq]; exact ⟨rfl, rfl⟩
  | cons e rest =>
    obtain ⟨_, hcmd, hdf, _⟩ := framerStep_registers hq
    exact ⟨hcmd, hdf⟩

theorem framerRun_command (n : Nat) (s : State) : (framerRun n s).fcmd = s.fcmd ∧ (framerRun n s).df = s.df := by
  induction n generalizing s with
  | zero => exact ⟨rfl, rfl⟩
  | succ n ih =>
    obtain ⟨hcmd, hdf⟩ := framerStep_command (endPulses s)
    obtain ⟨hcmd', hdf'⟩ := ih (framerStep (endPulses s))
    exact ⟨hcmd'.trans hcmd, hdf'.trans hdf⟩

/-- Entering a byte loads it, entering the stop condition keeps SHR. -/
theorem enterByte_shr (bytes : List Byte) (n : BitVec 3) (c : FrameCounters) (shr : Byte) :
    (enterByte bytes n c shr).2 = shr ∨ (enterByte bytes n c shr).2 ∈ bytes := by
  cases hb : bytes[n.toNat]? with
  | none => exact .inl (by simp [enterByte, hb])
  | some b =>
    have hload : (enterByte bytes n c shr).2 = b := by simp [enterByte, hb]
    exact .inr (hload ▸ List.mem_of_getElem? hb)

/-- An event keeps SHR or loads a byte of one of the command's frames. -/
theorem counterAdvance_shr (w : Word) (df : Four Byte) (c : FrameCounters) (shr : Byte) :
    (counterAdvance w df c shr).2 = shr ∨ ∃ ffr, (counterAdvance w df c shr).2 ∈ frameBytes w df ffr := by
  have enter : ∀ n, (enterByte (frameBytes w df c.ffr) n c shr).2 = shr ∨
      ∃ ffr, (enterByte (frameBytes w df c.ffr) n c shr).2 ∈ frameBytes w df ffr :=
    fun n => (enterByte_shr (frameBytes w df c.ffr) n c shr).imp_right fun h => ⟨c.ffr, h⟩
  unfold counterAdvance
  split
  · exact .inl rfl
  · unfold counterNextPhase
    split
    case h_2 | h_4 =>
      split
      · exact .inl rfl
      · exact enter _
    case h_3 | h_5 => split <;> exact .inl rfl
    case h_1 => exact .inl rfl

theorem framerStep_shr (s : State) :
    (framerStep s).shr = s.shr ∨ ∃ ffr, (framerStep s).shr ∈ frameBytes s.fcmd s.df ffr := by
  cases hq : s.fq with
  | nil => exact .inl (by rw [framerStep_nil hq])
  | cons e rest =>
    obtain ⟨_, _, _, hadvance, _⟩ := framerStep_registers hq
    have hshr : (framerStep s).shr = (counterAdvance s.fcmd s.df s.ctr s.shr).2 := congrArg Prod.snd hadvance
    rw [hshr]
    exact counterAdvance_shr s.fcmd s.df s.ctr s.shr

/-- A command all whose bytes are already in SHR keeps it. -/
theorem framerRun_shr (n : Nat) {s : State} (h : ∀ ffr, ∀ b ∈ frameBytes s.fcmd s.df ffr, b = s.shr) :
    (framerRun n s).shr = s.shr := by
  induction n generalizing s with
  | zero => rfl
  | succ n ih =>
    obtain ⟨hcmd, hdf⟩ := framerStep_command (endPulses s)
    have hshr : (framerStep (endPulses s)).shr = s.shr := by
      rcases framerStep_shr (endPulses s) with hkeep | ⟨ffr, hload⟩
      · exact hkeep
      · exact h ffr _ hload
    rw [framerRun_succ, ih, hshr]
    rw [hcmd, hdf, hshr]
    exact h

theorem framerRun_shr_of_no_bytes (n : Nat) {s : State} (h : ∀ ffr, frameBytes s.fcmd s.df ffr = []) :
    (framerRun n s).shr = s.shr :=
  framerRun_shr n fun ffr _ hb => absurd (h ffr ▸ hb) List.not_mem_nil

/-! ## The command performed -/

/-- An accepted command with events performs them all in as many framer steps. -/
theorem loadFramer_commandDone (w : Word) {es : List FrEvent} (hes : es ≠ []) (df : Four Byte) (s : State) :
    commandDone w es s (framerRun es.length (loadFramer w es df s)) := by
  obtain ⟨e, rest, rfl⟩ := List.exists_cons_of_ne_nil hes
  have hq : (loadFramer w (e :: rest) df s).fq = e :: rest := rfl
  obtain ⟨htrace, hlevels, hfq, hbusy, hpulse, hnoted, hout⟩ := framerRun_queueDone hq
  obtain ⟨_, _, haccept, _, _⟩ := loadFramer_frame w (e :: rest) df s
  exact ⟨htrace, hlevels, (framerRun_command _ _).1, hfq, hbusy, hpulse, hnoted, outsideFramer_trans haccept hout⟩

theorem commandDone.levels_eq {w : Word} {es : List FrEvent} {s u : State} (h : commandDone w es s u) :
    levels u = finalLevels (levels s) es := by
  obtain ⟨_, hlevels, _⟩ := h
  exact hlevels

/-- An accepted START or STOP sends no byte, so SHR stays to its end. -/
theorem condition_performed {w : Word} {es : List FrEvent} (hop : opField w = 1 ∨ opField w = 2) (hes : es ≠ [])
    (s : State) :
    commandDone w es s (framerRun es.length (loadFramer w es s.df s)) ∧
      (framerRun es.length (loadFramer w es s.df s)).shr = s.shr ∧
      (framerRun es.length (loadFramer w es s.df s)).df = s.df := by
  have hbytes : ∀ ffr, frameBytes w s.df ffr = [] := fun ffr => by rcases hop with hop | hop <;> simp [frameBytes, hop]
  have hload : (loadFramer w es s.df s).shr = s.shr :=
    counterStart_shr (by rcases hop with hop | hop <;> simp [hop]) s.df s.shr
  have hkeep := framerRun_shr_of_no_bytes es.length (s := loadFramer w es s.df s) hbytes
  exact ⟨loadFramer_commandDone w hes s.df s, hkeep.trans hload, (framerRun_command _ _).2⟩

theorem frameBytes_wrbyteWord (b : Byte) (df : Four Byte) (ffr : BitVec 2) : frameBytes (wrbyteWord b) df ffr = [b] := by
  obtain ⟨hop, _, hbyte⟩ := wrbyteWord_fields b
  simp [frameBytes, hop, hbyte]

end Sys2Proof.Machine

open Sys2Proof Sys2Proof.Machine

/-- Settles O9: START is loaded and run to its end; it sends no byte, so SHR stays. -/
theorem startPerformsItsEvents : Obligations.StartPerformsItsEvents := by
  intro s hb
  obtain ⟨hdone, hshr, hdf⟩ := condition_performed (w := startWord) (es := expandStart) (.inl (by decide)) nofun s
  exact ⟨_, acceptFramer_of_idle hb startWord expandStart s.df, hdone, hdone.levels_eq.trans (finalLevels_start _), hshr,
    hdf⟩

/-- Settles O10: STOP is loaded and run to its end; it sends no byte, so SHR stays. -/
theorem stopPerformsItsEvents : Obligations.StopPerformsItsEvents := by
  intro s hb
  obtain ⟨hdone, hshr, hdf⟩ := condition_performed (w := stopWord) (es := expandStop) (.inr (by decide)) nofun s
  exact ⟨_, acceptFramer_of_idle hb stopWord expandStop s.df, hdone, hdone.levels_eq.trans (finalLevels_stop _), hshr,
    hdf⟩

/-- Settles O11: WRBYTE is loaded with its byte in SHR and run to its end; its one byte is that of SHR. -/
theorem wrbytePerformsItsEvents : Obligations.WrbytePerformsItsEvents := by
  intro b s hb
  have hdone := loadFramer_commandDone (wrbyteWord b) (es := expandWrbyte b) nofun s.df s
  have hload : (loadFramer (wrbyteWord b) (expandWrbyte b) s.df s).shr = b := counterStart_wrbyteWord b s.df s.shr
  have hkeep : (framerRun 52 (loadFramer (wrbyteWord b) (expandWrbyte b) s.df s)).shr = b := by
    rw [framerRun_shr 52, hload]
    intro ffr x hx
    rw [loadFramer_fcmd, frameBytes_wrbyteWord, List.mem_singleton] at hx
    exact hx.trans hload.symm
  exact ⟨_, acceptFramer_of_idle hb (wrbyteWord b) (expandWrbyte b) s.df, hdone,
    hdone.levels_eq.trans (finalLevels_wrbyte _ b), hload, hkeep, (framerRun_command 52 _).2⟩
end

section
/-! PROOF. A list of moves of one unit, or of the tick handler, runs that agent (40_framer_primitives.md R127,
42_keypad_scanner.md R171, R174, 43_host_stopwatch.md R196). -/

namespace Sys2Proof.Machine

/-! ## The units -/

theorem runSteps_framer (n : Nat) (s : State) (ms : List Move) :
    runSteps n { s with moves := List.replicate n .framer ++ ms } = .next { framerRun n s with moves := ms } := by
  induction n generalizing s with
  | zero => rfl
  | succ n ih =>
    have hstep : step { s with moves := List.replicate (n + 1) .framer ++ ms } =
        .next (framerStep { endPulses s with moves := List.replicate n .framer ++ ms }) := step_framer rfl
    rw [runSteps_succ_of_next n hstep, framerStep_moves, ih, framerRun_succ]

theorem runSteps_scanner (vs : List (BitVec 4)) (s : State) (ms : List Move) :
    runSteps vs.length { s with moves := vs.map .scanner ++ ms } = .next { scannerRun vs s with moves := ms } := by
  induction vs generalizing s with
  | nil => rfl
  | cons v vs ih =>
    have hstep : step { s with moves := (v :: vs).map .scanner ++ ms } =
        .next (scannerStep v { endPulses s with moves := vs.map .scanner ++ ms }) := step_scanner rfl
    rw [List.length_cons, runSteps_succ_of_next _ hstep, scannerStep_moves, ih, scannerRun]

theorem step_scannerIdeal {s : State} {ms : List Move} (hm : s.moves = .scannerIdeal :: ms) :
    step s = .next (scannerStep (idealSample s.pressed s.row) { endPulses s with moves := ms }) := by
  rw [step_of_fetch_none (by rw [nextMove_of_cons hm]; rfl), nextMove_of_cons hm, takeMove_of_cons hm]
  rfl

theorem runSteps_scannerIdeal (n : Nat) (s : State) (ms : List Move) :
    runSteps n { s with moves := List.replicate n .scannerIdeal ++ ms } =
      .next { scannerRunIdeal n s with moves := ms } := by
  induction n generalizing s with
  | zero => rfl
  | succ n ih =>
    have hstep : step { s with moves := List.replicate (n + 1) .scannerIdeal ++ ms } =
        .next (scannerStep (idealSample s.pressed s.row)
          { endPulses s with moves := List.replicate n .scannerIdeal ++ ms }) := step_scannerIdeal rfl
    rw [runSteps_succ_of_next n hstep, scannerStep_moves, ih, scannerRunIdeal]

/-! ## The tick handler -/

/-- The handler does not look at the moves. -/
theorem handlerStep_moves (s : State) (ms : List Move) :
    handlerStep { s with moves := ms } = { handlerStep s with moves := ms } := by
  cases hh : s.handler <;> simp only [handlerStep, hh]
  case readRun => cases hr : s.runState <;> simp [hr, endTick]
  case wait => cases hn : s.fNoted <;> simp [hn, hh, endTick]
  all_goals rfl

theorem handlerStep_host (s : State) : (handlerStep s).host = s.host := by
  unfold handlerStep
  repeat' split
  all_goals rfl

/-- Away from its `ISSUE` a move of the handler in a run of the reference host is one of its actions. -/
theorem step_handler {s : State} {ms : List Move} (hm : s.moves = .handler :: ms) (hh : s.host = .reference)
    (hw : ∀ w, s.handler ≠ .issue w) : step s = .next (handlerStep { endPulses s with moves := ms }) := by
  have hword : s.handler.word = none :=
    Option.eq_none_iff_forall_ne_some.mpr fun w h => hw w ((handler_word_iff s.handler w).mp h)
  have hfetch : fetch .handler (takeMove s) = none := by simp [fetch, fetchHandler, hword]
  have hruns : handlerRuns (takeMove s) = true := by simp [hh]
  rw [step_of_fetch_none (by rw [nextMove_of_cons hm]; exact hfetch), nextMove_of_cons hm, unitMove, if_pos hruns,
    takeMove_of_cons hm]

theorem runSteps_handler (n : Nat) (s : State) (ms : List Move) (hh : s.host = .reference)
    (hw : ∀ k, k < n → ∀ w, (handlerRun k s).handler ≠ .issue w) :
    runSteps n { s with moves := List.replicate n .handler ++ ms } = .next { handlerRun n s with moves := ms } := by
  induction n generalizing s with
  | zero => rfl
  | succ n ih =>
    have hstep : step { s with moves := List.replicate (n + 1) .handler ++ ms } =
        .next (handlerStep { endPulses s with moves := List.replicate n .handler ++ ms }) :=
      step_handler rfl hh (hw 0 n.succ_pos)
    have hlater : ∀ k, k < n → ∀ w, (handlerRun k (handlerStep (endPulses s))).handler ≠ .issue w :=
      fun k hk => hw (k + 1) (Nat.succ_lt_succ hk)
    have hhost : (handlerStep (endPulses s)).host = .reference := (handlerStep_host (endPulses s)).trans hh
    rw [runSteps_succ_of_next n hstep, handlerStep_moves, ih _ hhost hlater, handlerRun]

end Sys2Proof.Machine

open Sys2Proof.Machine

/-- Settles O8: each move presents no code, so its step is the agent's own, and no agent looks at the moves. -/
theorem unitMovesRunTheUnit : Obligations.UnitMovesRunTheUnit :=
  ⟨runSteps_framer, runSteps_scanner, runSteps_scannerIdeal, runSteps_handler⟩
end

section
/-! PROOF. The numbers of pin writes and of settle waits of the framer's commands (70_reset_and_hazards.md R285,
41_framer_commands.md R142). -/

namespace Sys2Proof.Machine

/-- In a list of pin writes, each with its settle wait, half of the events are writes and half are waits. -/
theorem SettledWrites.counts {es : List FrEvent} (h : SettledWrites es) :
    2 * writeCount es = es.length ∧ settleCount es = writeCount es := by
  obtain ⟨ws, rfl⟩ := h
  induction ws with
  | nil => exact ⟨rfl, rfl⟩
  | cons w ws ih =>
    obtain ⟨hlen, heq⟩ := ih
    have hwrite : writeCount [.write w.1 w.2, .settle] = 1 := rfl
    have hwait : settleCount [.write w.1 w.2, .settle] = 1 := rfl
    rw [List.flatMap_cons, writeCount_append, settleCount_append, List.length_append, hwrite, hwait, heq, ← hlen]
    exact ⟨Nat.mul_add 2 1 _, rfl⟩

/-- The counts of a list of settled pin writes from its length. -/
theorem SettledWrites.counts_of_length {es : List FrEvent} (h : SettledWrites es) {n : Nat} (hn : es.length = 2 * n) :
    writeCount es = n ∧ settleCount es = n := by
  obtain ⟨hlen, heq⟩ := h.counts
  have hw : writeCount es = n := by omega
  exact ⟨hw, heq.trans hw⟩

/-- With a DigitFrame RENDER has the events of a refresh. -/
theorem expand_render {m sec : BitVec 6} {c : Bool} {d : Four Byte} (hd : digits m sec c = some d) :
    expand (.render m sec c) = expandRefresh d := by simp [expand, hd]

theorem time_in_domain {m sec : BitVec 6} (hm : m.toNat ≤ 59) (hs : sec.toNat ≤ 59) :
    (timeInDomain m && timeInDomain sec) = true := by simp [timeInDomain, hm, hs]

end Sys2Proof.Machine

open Sys2Proof.Machine

/-- Settles O22: every event list is settled pin writes, so its counts are half its length. -/
theorem eventCounts : Obligations.EventCounts := by
  refine ⟨settledWrites_start.counts_of_length rfl, settledWrites_stop.counts_of_length rfl,
    fun b => (settledWrites_expand (.wrbyte b)).counts_of_length rfl,
    fun b => (settledWrites_expand (.sendframe b)).counts_of_length rfl,
    fun bs => (settledWrites_frame bs).counts_of_length (by rw [length_frame]; omega), fun m sec c hm hs => ?_⟩
  obtain ⟨d, hd⟩ := digits_some c (time_in_domain hm hs)
  obtain ⟨hw, hwait⟩ := (settledWrites_expand (.render m sec c)).counts_of_length (n := 203)
    (by rw [expand_render hd, length_expandRefresh])
  exact ⟨hw, hwait, by rw [waitClocks, hwait]⟩
end

section
/-! PROOF. SENDFRAME and RENDER from their acceptance to their last event, and the DigitFrame of RENDER
(41_framer_commands.md R140 to R143). -/

namespace Sys2Proof.Machine

/-! ## The DigitFrame -/

/-- A DigitFrame is made of four table lookups and the colon bit. -/
theorem digits_lookups {m sec : BitVec 6} {c : Bool} {d : Four Byte} (h : digits m sec c = some d) :
    ∃ d0 d1 d2 d3, seg (m.toNat / 10) = some d0 ∧ seg (m.toNat % 10) = some d1 ∧ seg (sec.toNat / 10) = some d2 ∧
      seg (sec.toNat % 10) = some d3 ∧ d = ⟨d0, d1 ||| colonByte c, d2, d3⟩ := by
  unfold digits at h
  split at h
  · next d0 d1 d2 d3 h0 h1 h2 h3 => exact ⟨d0, d1, d2, d3, h0, h1, h2, h3, (Option.some.inj h).symm⟩
  · cases h

/-- On a byte with bit 7 clear the colon byte sets bit 7 to the colon. -/
theorem getLsbD_or_colonByte {b : Byte} (h : b.getLsbD 7 = false) (c : Bool) : (b ||| colonByte c).getLsbD 7 = c := by
  cases c with
  | false => simpa [colonByte] using h
  | true => simp [colonByte]

/-- An idle framer accepts RENDER in its domain with the events of a refresh and its DigitFrame. -/
theorem exec_render_of_idle {m sec : BitVec 6} {c : Bool} {d : Four Byte} {s : State} (hm : m.toNat ≤ 59)
    (hs : sec.toNat ≤ 59) (hd : digits m sec c = some d) (hb : s.fBusy = false) :
    exec (.render m sec c) s = .next (loadFramer (renderWord m sec c) (expandRefresh d) d s) := by
  rcases execRender_cases m sec c s with ⟨hout, _⟩ | ⟨df, _, hdf, hx⟩
  · cases hout.symm.trans (time_in_domain hm hs)
  · cases hdf.symm.trans hd
    exact hx.trans (acceptFramer_of_idle hb _ _ _)

theorem expandRefresh_eq (d : Four Byte) :
    expandRefresh d = frame [0x40] ++ frame [0xC0, d.e0, d.e1, d.e2, d.e3] ++ frame [0x8F] := by
  simp [expandRefresh, refreshFrames, expandFrames, fourList]

theorem finalLevels_refresh (p : Bool × Bool) (d : Four Byte) : finalLevels p (expandRefresh d) = (true, true) := by
  rw [expandRefresh_eq, finalLevels_append, finalLevels_frame]

theorem expandRefresh_ne_nil (d : Four Byte) : expandRefresh d ≠ [] :=
  List.ne_nil_of_length_pos (by rw [length_expandRefresh]; decide)

/-! ## SHR at the end of a start condition -/

/-- The counters and SHR after one event. -/
def counterNext (w : Word) (df : Four Byte) (p : FrameCounters × Byte) : FrameCounters × Byte :=
  counterAdvance w df p.1 p.2

/-- The framer's steps advance the counters and SHR once for each event performed. -/
theorem framerRun_counters {n : Nat} {s : State} (hn : n ≤ s.fq.length) :
    ((framerRun n s).ctr, (framerRun n s).shr) = (counterNext s.fcmd s.df)^[n] (s.ctr, s.shr) := by
  induction n generalizing s with
  | zero => rfl
  | succ n ih =>
    obtain ⟨e, rest, hq⟩ := List.exists_cons_of_length_pos (Nat.zero_lt_of_lt hn)
    obtain ⟨hfq, hcmd, hdf, hadvance, _⟩ := framerStep_registers (s := endPulses s) hq
    have hrest : n ≤ (framerStep (endPulses s)).fq.length := by
      rw [hq, List.length_cons] at hn
      rw [hfq]
      exact Nat.le_of_succ_le_succ hn
    rw [framerRun_succ, ih hrest, hcmd, hdf, hadvance, Function.iterate_succ_apply]
    rfl

/-- The sixth event ends a start condition. -/
theorem counterNext_start (w : Word) (df : Four Byte) (shr : Byte) :
    (counterNext w df)^[6] ({ FrameCounters.zero with fph := .start }, shr) =
      counterNextPhase w df { FrameCounters.zero with fph := .start, fsub := 5 } shr := by
  simp [counterNext, counterAdvance, FrameCounters.zero, lastSub, phaseWrites]

theorem frameBytes_sendframeWord (b : Byte) (df : Four Byte) (ffr : BitVec 2) :
    frameBytes (sendframeWord b) df ffr = [b] := by
  obtain ⟨hop, _, hbyte⟩ := sendframeWord_fields b
  simp [frameBytes, hop, hbyte]

/-- The start condition of SENDFRAME is followed by its byte, which is loaded. -/
theorem counterNext_sendframe (b : Byte) (df : Four Byte) (shr : Byte) :
    ((counterNext (sendframeWord b) df)^[6] (counterStart (sendframeWord b) df shr)).2 = b := by
  obtain ⟨hop, _, _⟩ := sendframeWord_fields b
  have hstart : counterStart (sendframeWord b) df shr = ({ FrameCounters.zero with fph := .start }, shr) := by
    simp [counterStart, hop]
  rw [hstart, counterNext_start]
  simp [counterNextPhase, hop, frameBytes_sendframeWord, enterByte]

/-- A framer at the start of SENDFRAME loads its byte at the end of the start condition, and no other byte after it. -/
theorem framerRun_sendframe_shr {b : Byte} {s : State} (n : Nat) (hcmd : s.fcmd = sendframeWord b)
    (hctr : ∃ shr, (s.ctr, s.shr) = counterStart (sendframeWord b) s.df shr) (hlen : 6 ≤ s.fq.length) :
    (framerRun (6 + n) s).shr = b := by
  obtain ⟨shr, hctr⟩ := hctr
  have hload : (framerRun 6 s).shr = b := by
    have hrun := framerRun_counters hlen
    rw [hcmd, hctr] at hrun
    exact (congrArg Prod.snd hrun).trans (counterNext_sendframe b s.df shr)
  rw [framerRun_add, framerRun_shr n, hload]
  intro ffr x hx
  obtain ⟨hcmd', _⟩ := framerRun_command 6 s
  rw [hcmd', hcmd, frameBytes_sendframeWord, List.mem_singleton] at hx
  exact hx.trans hload.symm

end Sys2Proof.Machine

open Sys2Proof Sys2Proof.Machine

/-- Settles O12: SENDFRAME is loaded and run to its end; it loads its one byte after the start condition. -/
theorem sendframePerformsItsEvents : Obligations.SendframePerformsItsEvents := by
  intro b s hb
  have hdone := loadFramer_commandDone (sendframeWord b) (es := expandSendframe b) nofun s.df s
  exact ⟨_, acceptFramer_of_idle hb (sendframeWord b) (expandSendframe b) s.df, hdone,
    hdone.levels_eq.trans (by rw [expandSendframe, finalLevels_append, finalLevels_stop]),
    framerRun_sendframe_shr 60 rfl ⟨s.shr, rfl⟩ (by decide : 6 ≤ 66), (framerRun_command 66 _).2⟩

/-- Settles O13: RENDER is loaded with its DigitFrame and run to its end. -/
theorem renderPerformsItsEvents : Obligations.RenderPerformsItsEvents := by
  intro m sec c s hm hs hb
  obtain ⟨d, hd⟩ := digits_some c (time_in_domain hm hs)
  obtain ⟨d0, d1, d2, d3, h0, h1, h2, h3, hdf⟩ := digits_lookups hd
  have hdone := loadFramer_commandDone (renderWord m sec c) (expandRefresh_ne_nil d) d s
  have hlevels := hdone.levels_eq.trans (finalLevels_refresh _ d)
  rw [length_expandRefresh] at hdone hlevels
  refine ⟨_, d0, d1, d2, d3, exec_render_of_idle hm hs hd hb, h0, h1, h2, h3, hdf, ?_, hlevels, (framerRun_command 406 _).2⟩
  rw [loadFramer_df, ← expandRefresh_eq]
  exact hdone

/-- Settles O27: the DigitFrame is four lookups, every entry of the table has bit 7 clear, and acceptance writes it to DF. -/
theorem digitFrameOfRender : Obligations.DigitFrameOfRender := by
  intro m sec c hm hs
  obtain ⟨d, hd⟩ := digits_some c (time_in_domain hm hs)
  obtain ⟨d0, d1, d2, d3, h0, h1, h2, h3, rfl⟩ := digits_lookups hd
  exact ⟨d0, d1, d2, d3, h0, h1, h2, h3, hd, getLsbD_or_colonByte (seg_bit7 h1) c, seg_bit7 h0, seg_bit7 h2, seg_bit7 h3,
    by omega, by omega, by omega, by omega, fun s hb => ⟨_, exec_render_of_idle hm hs hd hb, rfl⟩⟩
end

section
/-! PROOF. RENDER seen from the display: the frames the monitor reads from a framer's queue reach the sink's inbox, and the
sink reads them one after the other (41_framer_commands.md R143, R147; 20_memory.md R65, R66, R68). -/

namespace Sys2Proof.Machine

/-! ## Runs of moves -/

theorem runSteps_add_of_next (n k : Nat) {s t : State} (h : runSteps n s = .next t) :
    runSteps (n + k) s = runSteps k t := by
  induction n generalizing s with
  | zero =>
    cases h
    rw [Nat.zero_add]
  | succ n ih =>
    cases hstep : step s with
    | next u =>
      rw [runSteps_succ_of_next n hstep] at h
      rw [Nat.succ_add, runSteps_succ_of_next (n + k) hstep, ih h]
    | fault r => simp [runSteps, hstep] at h
    | refused r => simp [runSteps, hstep] at h

/-! ## From the framer's queue to the inbox -/

theorem monitorStart_out (m : Monitor) : (monitorStart m).out = m.out := by
  unfold monitorStart
  split <;> rfl

theorem monitorRise_out (d : Bool) (m : Monitor) : (monitorRise d m).out = m.out := by
  unfold monitorRise
  repeat' split
  all_goals rfl

/-- A stop condition completes the frame being read, or no frame. -/
theorem monitorStop_out (m : Monitor) : (monitorStop m).out = m.out ++ [m.cur] ∨ (monitorStop m).out = m.out := by
  unfold monitorStop
  split
  · split
    · exact .inl rfl
    · exact .inr rfl
  · exact .inr rfl

/-- The monitor only adds to the frames it has read. -/
theorem monitorEdge_out (p q : Bool × Bool) (m : Monitor) : ∃ fs, (monitorEdge p q m).out = m.out ++ fs := by
  have keep : ∀ {n : Monitor}, n.out = m.out → ∃ fs, n.out = m.out ++ fs := fun h => ⟨[], h.trans (List.append_nil _).symm⟩
  unfold monitorEdge
  split
  · exact keep rfl
  · split
    · exact keep (monitorStart_out m)
    · split
      · rcases monitorStop_out m with h | h
        · exact ⟨[m.cur], h⟩
        · exact keep h
      · split
        · exact keep (monitorRise_out q.2 m)
        · exact keep rfl

/-- From `s` to `u` the frames the monitor has completed are those the sink has received. -/
def FramesReceived (s u : State) : Prop :=
  ∃ fs, u.mon.out = s.mon.out ++ fs ∧ u.sink.inbox = s.sink.inbox ++ fs

theorem FramesReceived.trans {s t u : State} (hst : FramesReceived s t) (htu : FramesReceived t u) : FramesReceived s u := by
  obtain ⟨fs, hout, hin⟩ := hst
  obtain ⟨gs, hout', hin'⟩ := htu
  exact ⟨fs ++ gs, by rw [hout', hout, List.append_assoc], by rw [hin', hin, List.append_assoc]⟩

theorem framesReceived_of_same {s u : State} (hmon : u.mon = s.mon) (hsink : u.sink = s.sink) : FramesReceived s u :=
  ⟨[], by rw [hmon, List.append_nil], by rw [hsink, List.append_nil]⟩

theorem performFr_framesReceived (e : FrEvent) (s : State) : FramesReceived s (performFr e s) := by
  rcases performFr_cases e s with ⟨l, v, _, h⟩ | ⟨_, h⟩ <;> rw [h]
  · obtain ⟨fs, hfs⟩ := monitorEdge_out (levels s) (levelsAfter (levels s) e) s.mon
    exact ⟨fs, hfs, by rw [record_sink, observe_sink, hfs, List.drop_left]⟩
  · exact framesReceived_of_same rfl rfl

/-- What follows an event leaves the bus and its observers. -/
theorem framerAfter_observers (rest : List FrEvent) (s : State) :
    (framerAfter rest s).mon = s.mon ∧ (framerAfter rest s).sink = s.sink := by
  rcases framerAfter_cases rest s with ⟨_, h⟩ | ⟨_, h⟩ <;> rw [h] <;> exact ⟨rfl, rfl⟩

theorem framerStep_framesReceived (s : State) : FramesReceived s (framerStep s) := by
  cases hq : s.fq with
  | nil =>
    rw [framerStep_nil hq]
    exact framesReceived_of_same rfl rfl
  | cons e rest =>
    rw [framerStep_cons hq]
    obtain ⟨hmon, hsink⟩ := framerAfter_observers rest (performFr e s)
    exact (performFr_framesReceived e s).trans (framesReceived_of_same hmon hsink)

theorem framerRun_framesReceived (n : Nat) (s : State) : FramesReceived s (framerRun n s) := by
  induction n generalizing s with
  | zero => exact framesReceived_of_same rfl rfl
  | succ n ih => exact FramesReceived.trans (framerStep_framesReceived (endPulses s)) (ih _)

/-- The framer's run shows the monitor the events of its queue. -/
theorem framerRun_mon {es : List FrEvent} {s : State} (hq : s.fq = es) :
    (framerRun es.length s).mon = monitorOver s.mon (levels s) es := by
  induction es generalizing s with
  | nil => rfl
  | cons e es ih =>
    have hq : (endPulses s).fq = e :: es := hq
    obtain ⟨hrest, _⟩ := framerStep_registers hq
    have hmon : (framerStep (endPulses s)).mon = monitorEdge (levels s) (levelsAfter (levels s) e) s.mon := by
      rw [framerStep_cons hq, (framerAfter_observers es _).1, performFr_mon]
      rfl
    rw [List.length_cons, framerRun_succ, ih hrest, hmon, framerStep_levels hq, monitorOver_cons]
    rfl

theorem monitorVerdict_eq_some {m : Monitor} {fs : List (List Byte)} (h : monitorVerdict m = some fs) :
    m.malformed = false ∧ m.inframe = false ∧ m.out = fs := by
  unfold monitorVerdict at h
  split at h
  · cases h
  · next hgood =>
    obtain ⟨hm, hf⟩ := Bool.or_eq_false_iff.mp (Bool.eq_false_iff.mpr hgood)
    exact ⟨hm, hf, Option.some.inj h⟩

/-- A queue of frames, begun outside a frame, is read as those frames and received by the sink. -/
theorem framerRun_frames {fs : List (List Byte)} {s : State} (hq : s.fq = expandFrames fs)
    (hm : s.mon.malformed = false) (hf : s.mon.inframe = false) :
    (framerRun (expandFrames fs).length s).mon.malformed = false ∧
      (framerRun (expandFrames fs).length s).mon.inframe = false ∧
      (framerRun (expandFrames fs).length s).mon.out = s.mon.out ++ fs ∧
      (framerRun (expandFrames fs).length s).sink.inbox = s.sink.inbox ++ fs := by
  have hverdict := monitorVerdict_frames hm hf (levels s) fs
  rw [← framerRun_mon hq] at hverdict
  obtain ⟨hm', hf', hout⟩ := monitorVerdict_eq_some hverdict
  obtain ⟨gs, hout', hin⟩ := framerRun_framesReceived (expandFrames fs).length s
  have hgs : gs = fs := List.append_cancel_left (hout'.symm.trans hout)
  exact ⟨hm', hf', hout, by rw [hin, hgs]⟩

/-! ## From the inbox to the display -/

/-- The number of moves in which the sink reads a list of frames: one a byte, and one for an empty frame. -/
def sinkMoves (fs : List (List Byte)) : Nat := (fs.map fun f => max 1 f.length).sum

theorem sinkFrames_cons_of_some {k k' : SinkView} {f : List Byte} (fs : List (List Byte)) (h : sinkFrame k f = some k') :
    sinkFrames k (f :: fs) = sinkFrames k' fs := by rw [sinkFrames, h]

/-- The sink's moves over frames that R68 accepts are R68 on those frames. -/
theorem runSteps_frames {fs gs : List (List Byte)} {s : State} {ms : List Move} {k : SinkView}
    (hm : s.moves = List.replicate (sinkMoves fs) .display ++ ms) (hr : s.sink.refused = false) (hrest : s.sink.rest = [])
    (hin : s.sink.inbox = fs ++ gs) (hk : sinkFrames (sinkView s) fs = some k) :
    ∃ u, runSteps (sinkMoves fs) s = .next u ∧ sinkView u = k ∧ u.sink.refused = false ∧ u.sink.rest = [] ∧
      u.sink.inbox = gs ∧ OutsideDisplay s u := by
  induction fs generalizing s with
  | nil => exact ⟨s, rfl, Option.some.inj hk, hr, hrest, hin, rfl, rfl, rfl, rfl⟩
  | cons f fs ih =>
    have hmoves : sinkMoves (f :: fs) = max 1 f.length + sinkMoves fs := List.sum_cons
    rw [hmoves, ← List.replicate_append_replicate, List.append_assoc] at hm
    obtain ⟨t, hrun, hinbox, hleft, hread, hout⟩ := runSteps_frame hm hr hrest hin
    rcases hread with ⟨hnone, _⟩ | ⟨hsome, hrefused, hdone⟩
    · simp [sinkFrames, hnone] at hk
    · rw [sinkFrames_cons_of_some fs hsome] at hk
      obtain ⟨u, hrun', hview, hrefused', hdone', hinbox', hout'⟩ := ih hleft hrefused hdone hinbox hk
      exact ⟨u, by rw [hmoves, runSteps_add_of_next _ _ hrun, hrun'], hview, hrefused', hdone', hinbox', hout.trans hout'⟩

/-- R68 on the three frames of a refresh, from any mode. -/
theorem sinkFrames_refresh (k : SinkView) (d : Four Byte) :
    sinkFrames k (refreshFrames d) = some { mode := .autoinc, on := .on, dm := k.dm.writeFrom 0 (fourList d) } := by
  have hmode : sinkFrame k [0x40] = some { k with mode := .autoinc } := by rw [sinkFrame_autoinc, if_pos rfl]
  have hburst : sinkFrame { k with mode := .autoinc } (0xC0 :: fourList d) =
      some { k with mode := .autoinc, dm := k.dm.writeFrom 0 (fourList d) } := by
    rw [sinkFrame_addr0, if_pos ⟨rfl, (by decide : 4 ≤ displaySize)⟩]
  rw [refreshFrames, sinkFrames_cons_of_some _ hmode, sinkFrames_cons_of_some _ hburst,
    sinkFrames_cons_of_some _ ((sinkFrame_displayOn _ []).trans (if_pos rfl)), sinkFrames]

/-- A burst stores its bytes at consecutive addresses. -/
theorem Memory.read_writeFrom (m : Memory) (a : Nat) {bs : List Byte} {i : Nat} {b : Byte} (h : bs[i]? = some b) :
    (m.writeFrom a bs).read (a + i) = some b := by
  induction bs generalizing m a i with
  | nil => cases h
  | cons x bs ih =>
    rw [Memory.writeFrom]
    cases i with
    | zero =>
      obtain rfl : x = b := Option.some.inj h
      exact (Memory.read_writeFrom_other (m.write a x) (a + 1) a bs (.inl a.lt_succ_self)).trans
        (Memory.read_write_same m a x)
    | succ i =>
      rw [Nat.add_comm i 1, ← Nat.add_assoc]
      exact ih (m.write a x) (a + 1) h

/-! ## A refresh -/

/-- An accepted RENDER run to its end, seen by the observers: three more frames in the monitor and in the inbox. -/
theorem framerRun_refresh {s : State} (w : Word) (d : Four Byte) (hm : s.mon.malformed = false)
    (hf : s.mon.inframe = false) :
    ∃ v, framerRun 406 (loadFramer w (expandRefresh d) d s) = v ∧ v.mon.malformed = false ∧ v.mon.inframe = false ∧
      v.mon.out = s.mon.out ++ refreshFrames d ∧ v.sink = { s.sink with inbox := s.sink.inbox ++ refreshFrames d } ∧
      v.dm = s.dm := by
  have hq : (loadFramer w (expandRefresh d) d s).fq = expandFrames (refreshFrames d) := rfl
  obtain ⟨hm', hf', hout, hin⟩ := framerRun_frames hq hm hf
  obtain ⟨_, _, _, _, _, _, _, _, _, _, hdm, hsink⟩ := loadFramer_commandDone w (expandRefresh_ne_nil d) d s
  rw [← expandRefresh, length_expandRefresh] at hm' hf' hout hin
  rw [length_expandRefresh] at hdm hsink
  exact ⟨_, rfl, hm', hf', hout, by rw [hsink, hin]; rfl, hdm⟩

/-- The sink's moves over a received refresh. -/
theorem runSteps_refresh {d : Four Byte} {s : State} {ms : List Move}
    (hm : s.moves = List.replicate 7 .display ++ ms) (hr : s.sink.refused = false) (hrest : s.sink.rest = [])
    (hin : s.sink.inbox = refreshFrames d) :
    ∃ u, runSteps 7 s = .next u ∧ u.mon = s.mon ∧ u.sink.mode = .autoinc ∧ u.sink.on = .on ∧ u.sink.refused = false ∧
      u.sink.inbox = [] ∧ u.sink.rest = [] ∧ u.dm = s.dm.writeFrom 0 (fourList d) := by
  obtain ⟨u, hrun, hview, hrefused, hdone, hinbox, hframer, _⟩ :=
    runSteps_frames (fs := refreshFrames d) (gs := []) hm hr hrest (hin.trans (List.append_nil _).symm)
      (sinkFrames_refresh (sinkView s) d)
  obtain ⟨_, _, _, _, _, _, _, _, _, hmon⟩ := (framerPart_eq_iff s u).mp hframer
  obtain ⟨hmode, hon, hdm⟩ := SinkView.mk.inj hview
  exact ⟨u, hrun, hmon, hmode, hon, hrefused, hinbox, hdone, hdm⟩

end Sys2Proof.Machine

open Sys2Proof Sys2Proof.Machine

/-- Settles O33: the framer's run gives the sink the three frames, and the sink's seven moves are R68 on them. -/
theorem renderReachesTheDisplay : Obligations.RenderReachesTheDisplay := by
  intro m sec c d s ms hm hs hd hb hframe hmal hrefused hrest hinbox
  obtain ⟨v, hrun, hmal', hframe', hout, hsink, hdm⟩ := framerRun_refresh (renderWord m sec c) d hmal hframe
  obtain ⟨u, hread, hmon, hmode, hon, hrefused', hinbox', hdone, hmem⟩ :=
    runSteps_refresh (d := d) (s := { v with moves := List.replicate 7 .display ++ ms }) (ms := ms) rfl
      (by simp only [hsink, hrefused]) (by simp only [hsink, hrest])
      (by simp only [hsink, hinbox, List.nil_append])
  have hmem : u.dm = s.dm.writeFrom 0 (fourList d) := by rw [hmem, hdm]
  have hstored : ∀ i b, (fourList d)[i]? = some b → u.dm.read i = some b := fun i b h => by
    rw [hmem, ← Memory.read_writeFrom s.dm 0 h, Nat.zero_add]
  have hframer := runSteps_framer 406 (loadFramer (renderWord m sec c) (expandRefresh d) d s)
    (List.replicate 7 .display ++ ms)
  rw [hrun, ← List.append_assoc] at hframer
  refine ⟨_, u, exec_render_of_idle hm hs hd hb, (runSteps_add_of_next 406 7 hframer).trans hread, by rw [hmon]; exact hout,
    by rw [hmon]; exact hmal', by rw [hmon]; exact hframe', hmode, hon, hrefused', hinbox', hdone, hstored 0 _ rfl,
    hstored 1 _ rfl, hstored 2 _ rfl, hstored 3 _ rfl, fun a ha => ?_⟩
  rw [hmem]
  exact Memory.read_writeFrom_other s.dm 0 a _ (.inr (show 0 + 4 ≤ a by omega))
end

section
/-! PROOF. The scanner position by position (42_keypad_scanner.md R171), and the column it reports (R164). -/

namespace Sys2Proof.Machine

/-! ## The lowest column -/

/-- `lowest` of a value other than 0 is the index of a set bit, and no lower bit is set. -/
theorem lowest_spec {v : BitVec 4} (hv : v ≠ 0) :
    v.getLsbD (lowest v).toNat = true ∧ ∀ j, j < (lowest v).toNat → v.getLsbD j = false := by
  unfold lowest
  split_ifs with h0 h1 h2
  · exact ⟨h0, fun j hj => absurd hj j.not_lt_zero⟩
  · refine ⟨h1, fun j (hj : j < 1) => ?_⟩
    interval_cases j
    exact Bool.eq_false_of_not_eq_true h0
  · refine ⟨h2, fun j (hj : j < 2) => Bool.eq_false_of_not_eq_true ?_⟩
    interval_cases j <;> assumption
  · refine ⟨by_contra fun (h3 : ¬v.getLsbD 3 = true) => hv (BitVec.eq_of_getLsbD_eq fun j hj => ?_),
      fun j (hj : j < 3) => Bool.eq_false_of_not_eq_true ?_⟩
    · refine (Bool.eq_false_of_not_eq_true ?_).trans BitVec.getLsbD_zero.symm
      interval_cases j <;> assumption
    · interval_cases j <;> assumption

/-- The index of a set bit below which no bit is set is the lowest one. -/
theorem lowest_eq {v : BitVec 4} {c : Fin 4} (hc : v.getLsbD c.val = true)
    (hlow : ∀ j, j < c.val → v.getLsbD j = false) : lowest v = BitVec.ofNat 2 c.val := by
  have hv : v ≠ 0 := by rintro rfl; simp at hc
  obtain ⟨hset, hmin⟩ := lowest_spec hv
  have heq : (lowest v).toNat = c.val := by
    rcases lt_trichotomy (lowest v).toNat c.val with h | h | h
    · rw [hlow _ h] at hset; cases hset
    · exact h
    · rw [hmin _ h] at hc; cases hc
  rw [← heq, BitVec.ofNat_toNat, BitVec.setWidth_eq]

theorem scanResult_of_ne_zero {cols : BitVec 4} (r : BitVec 2) (h : cols ≠ 0) :
    scanResult r cols = keymap r (lowest cols) := if_neg h

@[simp] theorem scanResult_zero (r : BitVec 2) : scanResult r 0 = keyNoneCode := rfl

/-! ## The positions -/

theorem exec_scan_of_idle {s : State} (hb : s.kBusy = false) : exec .scan s = .next (loadScanner s) := by
  rcases execScan_cases s with ⟨hb', _⟩ | ⟨_, h⟩
  · cases hb.symm.trans hb'
  · exact h

section Positions
variable {s : State} (v : BitVec 4)

theorem scannerStep_idle (h : s.kst = .idle) : scannerStep v s = s := by simp only [scannerStep, h]

theorem scannerStep_drive (h : s.kst = .drive) : scannerStep v s =
    { s with row := onehot s.krow, kst := .sample, trace := s.trace ++ [.rowWrite (onehot s.krow)] } := by
  simp only [scannerStep, h]; rfl

theorem scannerStep_sample (h : s.kst = .sample) : scannerStep v s = afterSample v (colSample v s) := by
  simp only [scannerStep, h]

theorem scannerStep_releaseHit (h : s.kst = .releaseHit) : scannerStep v s =
    { s with row := 0, kst := .debounce, trace := s.trace ++ [.rowWrite 0] } := by
  simp only [scannerStep, h]; rfl

theorem scannerStep_debounce (h : s.kst = .debounce) : scannerStep v s =
    { s with kst := .ret, trace := s.trace ++ [.debounce] } := by
  simp only [scannerStep, h]; rfl

theorem scannerStep_releaseMiss (h : s.kst = .releaseMiss) : scannerStep v s =
    { s with row := 0, kst := .ret, trace := s.trace ++ [.rowWrite 0] } := by
  simp only [scannerStep, h]; rfl

theorem scannerStep_ret (h : s.kst = .ret) : scannerStep v s = returnKey (scanResult s.krow s.kcols) s := by
  simp only [scannerStep, h]

end Positions

section Samples
variable {s : State} {v : BitVec 4}

theorem scannerStep_hit (h : s.kst = .sample) (hv : v ≠ 0) : scannerStep v s =
    { s with kcols := v, kst := .releaseHit, trace := s.trace ++ [.colSample v] } := by
  rw [scannerStep_sample v h, afterSample, if_neg hv]; rfl

theorem scannerStep_miss (h : s.kst = .sample) (hr : s.krow ≠ 3) : scannerStep 0 s =
    { s with kcols := 0, krow := s.krow + 1, kst := .drive, trace := s.trace ++ [.colSample 0] } := by
  rw [scannerStep_sample 0 h, afterSample, if_pos rfl, colSample_krow, if_neg hr]; rfl

theorem scannerStep_lastMiss (h : s.kst = .sample) (hr : s.krow = 3) : scannerStep 0 s =
    { s with kcols := 0, kst := .releaseMiss, trace := s.trace ++ [.colSample 0] } := by
  rw [scannerStep_sample 0 h, afterSample, if_pos rfl, colSample_krow, if_pos hr]; rfl

end Samples

end Sys2Proof.Machine

open Sys2Proof.Machine

/-- Settles O29: the four branches of `lowest`; the return reads the column off `scanResult`. -/
theorem lowestColumnChosen : Obligations.LowestColumnChosen := by
  refine ⟨fun v => lowest_spec, rfl, rfl, fun s v hk hcols => ?_⟩
  rw [scannerStep_ret v hk, returnKey_key, scanResult_of_ne_zero _ hcols]

/-- Settles O38: one lemma for each position and each outcome of a sample. -/
theorem scannerMachine : Obligations.ScannerMachine := by
  refine ⟨rfl, fun s hb => ?_, fun s v h => scannerStep_drive v h, fun s v h hv => scannerStep_hit h hv,
    fun s h hr => scannerStep_miss h ?_, fun s h hr => scannerStep_lastMiss h hr,
    fun s v h => scannerStep_releaseHit v h, fun s v h => scannerStep_debounce v h,
    fun s v h => scannerStep_releaseMiss v h, fun s v h => ⟨scanResult s.krow s.kcols, ?_, scannerStep_ret v h⟩⟩
  · exact ⟨_, exec_scan_of_idle hb, rfl, rfl, rfl, rfl, rfl, rfl, rfl, ⟨rfl, rfl, rfl, rfl, rfl⟩, rfl, rfl⟩
  · intro h3; simp [h3] at hr
  · by_cases hc : s.kcols = 0 <;> simp [hc, scanResult, keyNoneCode]
end

section
/-! PROOF. A whole SCAN, for any answers of the environment (42_keypad_scanner.md R170) and for the ideal matrix (R174). -/

namespace Sys2Proof.Machine

/-! ## What the scanner never touches -/

theorem outsideScanner.trans {s t u : State} (h : outsideScanner s t) (h' : outsideScanner t u) : outsideScanner s u := by
  obtain ⟨hframer, hhost, hinput, hdm, hsink⟩ := h
  obtain ⟨hframer', hhost', hinput', hdm', hsink'⟩ := h'
  exact ⟨hframer'.trans hframer, hhost'.trans hhost, hinput'.trans hinput, hdm'.trans hdm, hsink'.trans hsink⟩

theorem endPulses_outsideScanner (s : State) : outsideScanner s (endPulses s) := ⟨rfl, rfl, rfl, rfl, rfl⟩

theorem loadScanner_outsideScanner (s : State) : outsideScanner s (loadScanner s) := ⟨rfl, rfl, rfl, rfl, rfl⟩

theorem scannerRun_outsideScanner (vs : List (BitVec 4)) (s : State) : outsideScanner s (scannerRun vs s) := by
  induction vs generalizing s with
  | nil => exact ⟨rfl, rfl, rfl, rfl, rfl⟩
  | cons v vs ih => exact ((endPulses_outsideScanner s).trans (scannerStep_frame v _)).trans (ih _)

theorem scannerRun_pressed (vs : List (BitVec 4)) (s : State) : (scannerRun vs s).pressed = s.pressed := by
  obtain ⟨_, _, hinput, _⟩ := scannerRun_outsideScanner vs s
  exact congrArg Prod.fst hinput

/-! ## The end of a scan -/

/-- The scan has returned `k`, with the trace `tr`: rows inactive, scanner idle, completion noted. -/
structure ScanReturned (tr : List Event) (k : Byte) (u : State) : Prop where
  trace : u.trace = tr
  key : u.key = k
  row : u.row = 0
  kBusy : u.kBusy = false
  kst : u.kst = .idle
  kNoted : u.kNoted = true

/-- An idle scanner stays as it is, whatever further steps it is given. -/
theorem ScanReturned.after_run {tr : List Event} {k : Byte} {u : State} (h : ScanReturned tr k u)
    (ws : List (BitVec 4)) : ScanReturned tr k (scannerRun ws u) := by
  induction ws generalizing u with
  | nil => exact h
  | cons w ws ih =>
    have hstep : scannerStep w (endPulses u) = endPulses u := scannerStep_idle w h.kst
    rw [scannerRun, hstep]
    exact ih ⟨h.trace, h.key, h.row, h.kBusy, h.kst, h.kNoted⟩

section End
variable {s : State} {tr : List Event} {k : Byte} {ws : List (BitVec 4)}

/-- The return, with the rows already released. -/
theorem scannerRun_ret (hk : s.kst = .ret) (hrow : s.row = 0) (htrace : s.trace = tr)
    (hkey : scanResult s.krow s.kcols = k) (hw : 1 ≤ ws.length) :
    ScanReturned (tr ++ [.ret k]) k (scannerRun ws s) := by
  subst htrace hkey
  match ws, hw with
  | w :: ws, _ =>
    have hret : ScanReturned (s.trace ++ [.ret (scanResult s.krow s.kcols)]) (scanResult s.krow s.kcols)
        (returnKey (scanResult s.krow s.kcols) (endPulses s)) := ⟨rfl, rfl, hrow, rfl, rfl, rfl⟩
    rw [scannerRun, scannerStep_ret w (s := endPulses s) hk]
    exact hret.after_run ws

/-- After a hit: release, debounce, return (42_keypad_scanner.md R165 to R167). -/
theorem scannerRun_releaseHit (hk : s.kst = .releaseHit) (htrace : s.trace = tr)
    (hkey : scanResult s.krow s.kcols = k) (hw : 3 ≤ ws.length) :
    ScanReturned (tr ++ [.rowWrite 0, .debounce, .ret k]) k (scannerRun ws s) := by
  subst htrace
  match ws, hw with
  | w :: w' :: ws, hw =>
    rw [scannerRun, scannerStep_releaseHit w (s := endPulses s) hk, scannerRun, scannerStep_debounce w' rfl,
      List.append_cons, List.append_cons]
    exact scannerRun_ret (by rfl) (by rfl) (by rfl) hkey (by simpa using hw)

/-- After the last miss: release and return (42_keypad_scanner.md R168). -/
theorem scannerRun_releaseMiss (hk : s.kst = .releaseMiss) (htrace : s.trace = tr)
    (hkey : scanResult s.krow s.kcols = k) (hw : 2 ≤ ws.length) :
    ScanReturned (tr ++ [.rowWrite 0, .ret k]) k (scannerRun ws s) := by
  subst htrace
  match ws, hw with
  | w :: ws, hw =>
    rw [scannerRun, scannerStep_releaseMiss w (s := endPulses s) hk, List.append_cons]
    exact scannerRun_ret (by rfl) (by rfl) (by rfl) hkey (by simpa using hw)

end End

/-! ## One row: its drive, then its sample -/

/-- The state in which the row of a scan has been driven and its columns are about to be sampled. -/
def rowDriven (s : State) : State :=
  { endPulses s with row := onehot s.krow, kst := .sample, trace := s.trace ++ [.rowWrite (onehot s.krow)] }

section Row
variable {s : State} (a : BitVec 4) {v : BitVec 4}

theorem scannerRun_row (hk : s.kst = .drive) : scannerRun [a, v] s = scannerStep v (rowDriven s) := by
  rw [scannerRun, scannerStep_drive a (s := endPulses s) hk]; rfl

theorem scannerRun_row_hit (hk : s.kst = .drive) (hv : v ≠ 0) :
    (scannerRun [a, v] s).kst = .releaseHit ∧ (scannerRun [a, v] s).krow = s.krow ∧ (scannerRun [a, v] s).kcols = v ∧
      (scannerRun [a, v] s).trace = s.trace ++ [.rowWrite (onehot s.krow), .colSample v] := by
  rw [scannerRun_row a hk, scannerStep_hit (s := rowDriven s) rfl hv]
  exact ⟨rfl, rfl, rfl, List.append_assoc _ _ _⟩

theorem scannerRun_row_miss (hk : s.kst = .drive) (hr : s.krow ≠ 3) :
    (scannerRun [a, 0] s).kst = .drive ∧ (scannerRun [a, 0] s).krow = s.krow + 1 ∧
      (scannerRun [a, 0] s).trace = s.trace ++ [.rowWrite (onehot s.krow), .colSample 0] := by
  rw [scannerRun_row a hk, scannerStep_miss (s := rowDriven s) rfl hr]
  exact ⟨rfl, rfl, List.append_assoc _ _ _⟩

theorem scannerRun_row_lastMiss (hk : s.kst = .drive) (hr : s.krow = 3) :
    (scannerRun [a, 0] s).kst = .releaseMiss ∧ (scannerRun [a, 0] s).kcols = 0 ∧
      (scannerRun [a, 0] s).trace = s.trace ++ [.rowWrite (onehot s.krow), .colSample 0] := by
  rw [scannerRun_row a hk, scannerStep_lastMiss (s := rowDriven s) rfl hr]
  exact ⟨rfl, rfl, List.append_assoc _ _ _⟩

end Row

/-! ## The command as a function, row by row (42_keypad_scanner.md R170) -/

section FromRow
variable (r : BitVec 2) {v : BitVec 4} (vs : List (BitVec 4))

theorem scanTraceFrom_hit (hv : v ≠ 0) : scanTraceFrom r (v :: vs) =
    [.rowWrite (onehot r), .colSample v] ++ [.rowWrite 0, .debounce, .ret (keymap r (lowest v))] := by
  rw [scanTraceFrom, if_pos hv]

theorem scanTraceFrom_miss :
    scanTraceFrom r (0 :: vs) = [.rowWrite (onehot r), .colSample 0] ++ scanTraceFrom (r + 1) vs := by
  rw [scanTraceFrom, if_neg (not_not.mpr rfl)]

theorem scanKeyFrom_hit (hv : v ≠ 0) : scanKeyFrom r (v :: vs) = keymap r (lowest v) := if_pos hv

theorem scanKeyFrom_miss : scanKeyFrom r (0 :: vs) = scanKeyFrom (r + 1) vs := if_neg (not_not.mpr rfl)

end FromRow

/-! ## All rows -/

/-- One answer for each row, given to both of the row's steps: its drive, which reads none, and its sample. -/
def perStep (vs : List (BitVec 4)) : List (BitVec 4) := vs.flatMap fun v => [v, v]

theorem length_perStep (vs : List (BitVec 4)) : (perStep vs).length = 2 * vs.length := by
  simp [perStep, Nat.mul_comm]

theorem scannerRun_perStep_cons (v : BitVec 4) (vs ws : List (BitVec 4)) (s : State) :
    scannerRun (perStep (v :: vs) ++ ws) s = scannerRun (perStep vs ++ ws) (scannerRun [v, v] s) := rfl

theorem krow_succ_toNat : ∀ r : BitVec 2, r ≠ 3 → (r + 1).toNat = r.toNat + 1 := by decide

/-- From the drive of a row on, with an answer for each row left and time for the end. -/
theorem scannerRun_rows {s : State} {vs ws : List (BitVec 4)} (hk : s.kst = .drive)
    (hlen : s.krow.toNat + vs.length = 4) (hw : 3 ≤ ws.length) :
    ScanReturned (s.trace ++ scanTraceFrom s.krow vs) (scanKeyFrom s.krow vs) (scannerRun (perStep vs ++ ws) s) := by
  induction vs generalizing s with
  | nil => exact absurd hlen (Nat.ne_of_lt s.krow.isLt)
  | cons v vs ih =>
    rw [scannerRun_perStep_cons]
    rw [List.length_cons] at hlen
    by_cases hv : v = 0
    · subst hv
      rw [scanTraceFrom_miss, scanKeyFrom_miss, ← List.append_assoc]
      by_cases hr : s.krow = 3
      · have hlast : s.krow.toNat = 3 := by rw [hr]; rfl
        obtain rfl : vs = [] := List.length_eq_zero_iff.mp (by omega)
        obtain ⟨hk', hcols', htrace'⟩ := scannerRun_row_lastMiss 0 hk hr
        exact scannerRun_releaseMiss hk' htrace' (by rw [hcols', scanResult_zero]) (Nat.le_of_succ_le hw)
      · obtain ⟨hk', hkrow', htrace'⟩ := scannerRun_row_miss 0 hk hr
        have hrest := ih hk' (by rw [hkrow', krow_succ_toNat _ hr]; omega)
        rwa [hkrow', htrace'] at hrest
    · obtain ⟨hk', hkrow', hcols', htrace'⟩ := scannerRun_row_hit v hk hv
      rw [scanTraceFrom_hit _ _ hv, scanKeyFrom_hit _ _ hv, ← List.append_assoc]
      exact scannerRun_releaseHit hk' htrace' (by rw [hkrow', hcols', scanResult_of_ne_zero _ hv])
        (by rw [List.length_append]; omega)

/-! ## The ideal matrix -/

/-- The columns that the pressed cells of row `r` activate while that row is driven. -/
def pressedInRow (p : BitVec 16) (r : Nat) : BitVec 4 := p.extractLsb' (4 * r) 4

theorem pressedInRow_getLsbD (p : BitVec 16) (r : Nat) {c : Nat} (hc : c < 4) :
    (pressedInRow p r).getLsbD c = p.getLsbD (4 * r + c) := by
  simp [pressedInRow, hc]

/-- While one row is driven, the ideal matrix answers with the pressed cells of that row. -/
theorem idealSample_onehot (p : BitVec 16) (r : BitVec 2) : idealSample p (onehot r) = pressedInRow p r.toNat := by
  obtain rfl | rfl | rfl | rfl : r = 0 ∨ r = 1 ∨ r = 2 ∨ r = 3 := by revert r; decide
  all_goals simp [idealSample, rowAnswer, onehot, pressedInRow]

/-- The scanner reads the columns only at a sample. -/
theorem scannerStep_ignores_answer {s : State} (v w : BitVec 4) (h : s.kst ≠ .sample) :
    scannerStep v s = scannerStep w s := by
  cases hk : s.kst with
  | sample => exact absurd hk h
  | _ => simp only [scannerStep, hk]

/-- The positions after the last sample of a scan. -/
def pastSampling (s : State) : Prop := s.kst ≠ .drive ∧ s.kst ≠ .sample

theorem pastSampling_of_release {s : State} (h : s.kst = .releaseHit ∨ s.kst = .releaseMiss) : pastSampling s := by
  rcases h with h | h <;> simp [pastSampling, h]

theorem scannerStep_pastSampling {s : State} (v : BitVec 4) (h : pastSampling s) : pastSampling (scannerStep v s) := by
  obtain ⟨hd, hs⟩ := h
  rcases scannerStep_cases v s with ⟨hk, h⟩ | ⟨hk, _⟩ | ⟨hk, _⟩ | ⟨_, h⟩ | ⟨_, h⟩ | ⟨_, h⟩ | ⟨_, h⟩
  case inl => rw [h]; exact ⟨hd, hs⟩
  case inr.inl => exact absurd hk hd
  case inr.inr.inl => exact absurd hk hs
  all_goals simp [pastSampling, h]

/-- After its last sample a scan goes the same way whatever the columns show. -/
theorem scannerRunIdeal_of_pastSampling {s : State} (ws : List (BitVec 4)) (h : pastSampling s) :
    scannerRunIdeal ws.length s = scannerRun ws s := by
  induction ws generalizing s with
  | nil => rfl
  | cons w ws ih =>
    rw [List.length_cons, scannerRunIdeal, scannerRun,
      scannerStep_ignores_answer (s := endPulses s) (idealSample s.pressed s.row) w h.2]
    exact ih (scannerStep_pastSampling w (s := endPulses s) h)

/-- The drive and the sample of one row: the sample reads the pressed cells of that row. -/
theorem scannerRunIdeal_row {s : State} (hk : s.kst = .drive) (n : Nat) :
    scannerRunIdeal (n + 2) s = scannerRunIdeal n
      (scannerRun [pressedInRow s.pressed s.krow.toNat, pressedInRow s.pressed s.krow.toNat] s) := by
  have hdrive := fun v => scannerStep_drive v (s := endPulses s) hk
  simp only [scannerRunIdeal, scannerRun, hdrive, endPulses_pressed, endPulses_krow, idealSample_onehot]

/-- From the drive of a row on, the ideal matrix answers for each row left with its pressed cells. -/
theorem scannerRunIdeal_rows {s : State} {n : Nat} (hk : s.kst = .drive) (hlen : s.krow.toNat + n = 4)
    (ws : List (BitVec 4)) :
    scannerRunIdeal (2 * n + ws.length) s =
      scannerRun (perStep ((List.range' s.krow.toNat n).map (pressedInRow s.pressed)) ++ ws) s := by
  induction n generalizing s with
  | zero => exact absurd hlen (Nat.ne_of_lt s.krow.isLt)
  | succ n ih =>
    rw [List.range'_succ, List.map_cons, scannerRun_perStep_cons, Nat.mul_add_one, Nat.add_right_comm,
      scannerRunIdeal_row hk]
    have hlength : 2 * n + ws.length =
        (perStep ((List.range' (s.krow.toNat + 1) n).map (pressedInRow s.pressed)) ++ ws).length := by
      simp [length_perStep]
    generalize pressedInRow s.pressed s.krow.toNat = v
    by_cases hv : v = 0
    · subst hv
      by_cases hr : s.krow = 3
      · obtain ⟨hk', _⟩ := scannerRun_row_lastMiss 0 hk hr
        rw [hlength]
        exact scannerRunIdeal_of_pastSampling _ (pastSampling_of_release (.inr hk'))
      · obtain ⟨hk', hkrow', _⟩ := scannerRun_row_miss 0 hk hr
        have hrest := ih hk' (by rw [hkrow', krow_succ_toNat _ hr]; omega)
        rwa [hkrow', krow_succ_toNat _ hr, scannerRun_pressed] at hrest
    · obtain ⟨hk', _⟩ := scannerRun_row_hit v hk hv
      rw [hlength]
      exact scannerRunIdeal_of_pastSampling _ (pastSampling_of_release (.inl hk'))

/-! ## The least pressed cell -/

/-- No answer with an active column: the scan returns "none". -/
theorem scanKeyFrom_of_all_zero {vs : List (BitVec 4)} (r : BitVec 2) (h : ∀ v ∈ vs, v = 0) :
    scanKeyFrom r vs = keyNoneCode := by
  induction vs generalizing r with
  | nil => rfl
  | cons v vs ih =>
    obtain rfl : v = 0 := h v (by simp)
    rw [scanKeyFrom_miss]
    exact ih (r + 1) fun w hw => h w (by simp [hw])

/-- The first answer with an active column decides the result. -/
theorem scanKeyFrom_of_first {vs : List (BitVec 4)} {v : BitVec 4} {i : Nat} (r : BitVec 2) (hi : vs[i]? = some v)
    (hv : v ≠ 0) (hfirst : ∀ j, j < i → vs[j]? = some 0) :
    scanKeyFrom r vs = keymap (r + BitVec.ofNat 2 i) (lowest v) := by
  induction vs generalizing r i with
  | nil => simp at hi
  | cons w vs ih =>
    cases i with
    | zero =>
      obtain rfl : w = v := by simpa using hi
      rw [scanKeyFrom_hit r vs hv, BitVec.add_zero]
    | succ i =>
      obtain rfl : w = 0 := by simpa using hfirst 0 i.succ_pos
      have hrow : 1 + BitVec.ofNat 2 i = BitVec.ofNat 2 (i + 1) := by rw [Nat.add_comm, BitVec.ofNat_add]; rfl
      rw [scanKeyFrom_miss, ih (r + 1) (i := i) (by simpa using hi) fun j hj => by simpa using hfirst (j + 1) (by omega),
        BitVec.add_assoc, hrow]

/-- The code of the least pressed cell: row by row, the rows before its row are empty and it is lowest in its own. -/
theorem scanKeyFrom_least_cell {p : BitVec 16} {r c : Fin 4} (hset : p.getLsbD (4 * r.val + c.val) = true)
    (hmin : ∀ j, j < 4 * r.val + c.val → p.getLsbD j = false) :
    scanKeyFrom 0 ((List.range' 0 4).map (pressedInRow p)) = keymap (BitVec.ofNat 2 r.val) (BitVec.ofNat 2 c.val) := by
  have hanswer : ∀ j, j < 4 → ((List.range' 0 4).map (pressedInRow p))[j]? = some (pressedInRow p j) := fun j hj => by
    simp [hj]
  have hempty : ∀ j, j < r.val → pressedInRow p j = 0 := fun j hj => by
    refine BitVec.eq_of_getLsbD_eq fun i hi => ?_
    rw [pressedInRow_getLsbD p j hi, hmin _ (by omega)]
    exact BitVec.getLsbD_zero.symm
  have hcol : (pressedInRow p r.val).getLsbD c.val = true := by rwa [pressedInRow_getLsbD p r.val c.isLt]
  have hlow : lowest (pressedInRow p r.val) = BitVec.ofNat 2 c.val :=
    lowest_eq hcol fun j hj => by
      have hc := c.isLt
      rw [pressedInRow_getLsbD p r.val (by omega), hmin _ (by omega)]
  rw [scanKeyFrom_of_first 0 (hanswer r.val r.isLt) (fun h => by simp [h] at hcol)
    fun j hj => by rw [hanswer j (hj.trans r.isLt), hempty j hj], hlow, zero_add]

/-- SCAN accepted, then run with the ideal matrix: the key. -/
theorem scannerRunIdeal_loadScanner_key (s : State) :
    (scannerRunIdeal 11 (loadScanner s)).key = scanKeyFrom 0 ((List.range' 0 4).map (pressedInRow s.pressed)) := by
  have hrun := scannerRunIdeal_rows (s := loadScanner s) (n := 4) rfl rfl [0, 0, 0]
  rw [show 11 = 2 * 4 + [(0 : BitVec 4), 0, 0].length from rfl, hrun]
  exact (scannerRun_rows (s := loadScanner s) rfl rfl (le_refl 3)).key

end Sys2Proof.Machine

open Sys2Proof.Machine

/-- Settles O39: by induction over the rows left; a scan that ends early idles through the steps left. -/
theorem scanReportsFirstActiveCell : Obligations.ScanReportsFirstActiveCell := by
  intro s v0 v1 v2 v3 hb
  obtain ⟨htrace, hkey, hrow, hbusy, hkst, hnoted⟩ :=
    scannerRun_rows (s := loadScanner s) (vs := [v0, v1, v2, v3]) (ws := [0, 0, 0]) rfl rfl (le_refl 3)
  exact ⟨_, exec_scan_of_idle hb, htrace, hkey, hrow, hbusy, hkst, hnoted,
    (loadScanner_outsideScanner s).trans (scannerRun_outsideScanner _ _)⟩

/-- Settles O40: the ideal matrix is the run of O39 with the pressed cells of each row as its answer. -/
theorem idealMatrixScan : Obligations.IdealMatrixScan := by
  refine fun s hb => ⟨_, exec_scan_of_idle hb, fun hp => ?_, fun r c hset hmin => ?_⟩
  · rw [scannerRunIdeal_loadScanner_key, hp]
    exact scanKeyFrom_of_all_zero 0 (by decide)
  · rw [scannerRunIdeal_loadScanner_key, scanKeyFrom_least_cell hset hmin]
end

section
/-! PROOF. The reference host's two threads, position by position: what a foreground move and a handler move do
(43_host_stopwatch.md R194 to R199, R204). -/

namespace Sys2Proof.Machine

/-! ## The foreground's actions -/

section ForegroundActions
variable {s : State}

theorem foregroundStep_bootInit_of_ready (h : s.fg = .bootInit) (hp : s.periphReady = true) :
    foregroundStep s = { s with fg := .bootVars } := by simp only [foregroundStep, h, hp, if_true]

theorem foregroundStep_bootInit_of_not_ready (h : s.fg = .bootInit) (hp : s.periphReady = false) :
    foregroundStep s = s := by simp only [foregroundStep, h, hp, Bool.false_eq_true, if_false]

theorem foregroundStep_bootVars (h : s.fg = .bootVars) :
    foregroundStep s = { initHostVars s with fg := .issue bootWord .boot } := by simp only [foregroundStep, h]

theorem foregroundStep_issue {w : Word} {c : Call} (h : s.fg = .issue w c) : foregroundStep s = s := by
  simp only [foregroundStep, h]

theorem foregroundStep_wait_of_done {c : Call} (h : s.fg = .wait c) (hc : callDone c s = true) :
    foregroundStep s = { s with fg := afterCall c } := by simp only [foregroundStep, h, hc, if_true]

theorem foregroundStep_wait_of_not_done {c : Call} (h : s.fg = .wait c) (hc : callDone c s = false) :
    foregroundStep s = s := by simp only [foregroundStep, h, hc, Bool.false_eq_true, if_false]

theorem foregroundStep_enableTick (h : s.fg = .enableTick) :
    foregroundStep s = { s with tickEnabled := true, fg := loopHead } := by simp only [foregroundStep, h]

theorem foregroundStep_readKey (h : s.fg = .readKey) : foregroundStep s = { s with fg := .dispatch s.key } := by
  simp only [foregroundStep, h]

theorem foregroundStep_dispatch {k : Byte} (h : s.fg = .dispatch k) : foregroundStep s = s := by
  simp only [foregroundStep, h]

theorem foregroundStep_resetMinutes (h : s.fg = .resetMinutes) :
    foregroundStep s = { s with minutes := 0, fg := .resetSeconds } := by simp only [foregroundStep, h]

theorem foregroundStep_resetSeconds (h : s.fg = .resetSeconds) :
    foregroundStep s = { s with seconds := 0, fg := .resetColon } := by simp only [foregroundStep, h]

theorem foregroundStep_resetColon (h : s.fg = .resetColon) :
    foregroundStep s = { s with fg := .issue (renderWord 0 0 s.colonPhase) .reset } := by simp only [foregroundStep, h]

end ForegroundActions

/-! ## A foreground move -/

/-- The positions of the foreground that present a code: an `ISSUE` and a dispatch. -/
def Foreground.presents : Foreground → Bool
  | .issue _ _ => true
  | .dispatch _ => true
  | _ => false

theorem fetchForeground_eq_none {s : State} (h : s.fg.presents = false) : fetchForeground s = none := by
  refine Option.eq_none_iff_forall_ne_some.mpr fun ⟨c, t⟩ hf => ?_
  obtain ⟨_, ⟨w, a, hfg, _⟩ | ⟨k, hfg, _⟩⟩ := fetchForeground_some hf <;> rw [hfg] at h <;> cases h

theorem fetchForeground_issue {s : State} {w : Word} {c : Call} (hh : s.host = .reference) (hi : s.handler = .idle)
    (hf : s.fg = .issue w c) : fetchForeground s = some (.word w, { s with fg := .wait c }) := by
  simp only [fetchForeground, (foregroundRuns_iff s).mpr ⟨hh, hi⟩, hf, if_true]

theorem fetchForeground_dispatch {s : State} {k : Byte} (hh : s.host = .reference) (hi : s.handler = .idle)
    (hf : s.fg = .dispatch k) : fetchForeground s = some (.key k, { s with fg := loopHead }) := by
  simp only [fetchForeground, (foregroundRuns_iff s).mpr ⟨hh, hi⟩, hf, if_true]

section ForegroundMoves
variable {s : State} (hm : nextMove s = .foreground)
include hm

theorem fetch_foreground : fetch (nextMove s) (takeMove s) = fetchForeground (takeMove s) := by rw [hm]; rfl

/-- At a position that presents no code the foreground, if it runs, takes its action. -/
theorem step_foreground (hf : s.fg.presents = false) :
    step s = .next (if foregroundRuns (takeMove s) then foregroundStep (takeMove s) else takeMove s) := by
  rw [step_of_fetch_none ((fetch_foreground hm).trans (fetchForeground_eq_none (by rwa [takeMove_fg]))), hm]
  rfl

/-- Until its call's completion has been given to the host, the foreground stays. -/
theorem step_foreground_waits {c : Call} (hf : s.fg = .wait c) (hc : callDone c (takeMove s) = false) :
    step s = .next (takeMove s) := by
  rw [step_foreground hm (by rw [hf]; rfl),
    foregroundStep_wait_of_not_done (s := takeMove s) ((takeMove_fg s).trans hf) hc, ite_self]

section Runs
variable (hh : s.host = .reference) (hi : s.handler = .idle)
include hh hi

theorem step_foreground_action (hf : s.fg.presents = false) : step s = .next (foregroundStep (takeMove s)) := by
  rw [step_foreground hm hf, if_pos ((foregroundRuns_iff _).mpr ⟨(takeMove_host s).trans hh, (takeMove_handler s).trans hi⟩)]

/-- Once its call's completion has been given to the host, the foreground goes on. -/
theorem step_foreground_continues {c : Call} (hf : s.fg = .wait c) (hc : callDone c (takeMove s) = true) :
    step s = .next { takeMove s with fg := afterCall c } := by
  rw [step_foreground_action hm hh hi (by rw [hf]; rfl), foregroundStep_wait_of_done ((takeMove_fg s).trans hf) hc]

theorem step_readKey (hf : s.fg = .readKey) : step s = .next { takeMove s with fg := .dispatch s.key } := by
  rw [← takeMove_key s, step_foreground_action hm hh hi (by rw [hf]; rfl),
    foregroundStep_readKey ((takeMove_fg s).trans hf)]

/-- An `ISSUE` of the foreground whose unit is ready: the command runs, and the foreground waits. -/
theorem step_foreground_issue {w : Word} {c : Call} {i : Instr} (hf : s.fg = .issue w c) (hd : decode (.word w) = .ok i)
    (hr : ready i (takeMove s) = true) : step s = exec i { takeMove s with fg := .wait c } := by
  have hfetch := (fetch_foreground hm).trans
    (fetchForeground_issue ((takeMove_host s).trans hh) ((takeMove_handler s).trans hi) ((takeMove_fg s).trans hf))
  rw [step_of_decoded hfetch hd, presented, if_pos hr]

theorem fetch_foreground_dispatch {k : Byte} (hf : s.fg = .dispatch k) :
    fetch (nextMove s) (takeMove s) = some (.key k, { takeMove s with fg := loopHead }) :=
  (fetch_foreground hm).trans
    (fetchForeground_dispatch ((takeMove_host s).trans hh) ((takeMove_handler s).trans hi) ((takeMove_fg s).trans hf))

/-- A dispatch of a key symbol: the foreground is back at the loop's head, from where the symbol's action starts. -/
theorem step_foreground_dispatch {k : Byte} {i : Instr} (hf : s.fg = .dispatch k) (hd : decode (.key k) = .ok i) :
    step s = exec i { takeMove s with fg := loopHead } := by
  have hr : ready i (takeMove s) = true := by simp [ready, decode_key_consumer hd]
  rw [step_of_decoded (fetch_foreground_dispatch hm hh hi hf) hd, presented, if_pos hr]

end Runs

end ForegroundMoves

/-! ## The handler's actions -/

section HandlerActions
variable {s : State}

theorem handlerStep_idle (h : s.handler = .idle) : handlerStep s = s := by simp only [handlerStep, h]

theorem handlerStep_readRun_stopped (h : s.handler = .readRun) (hr : s.runState = .stopped) :
    handlerStep s = endTick s := by simp only [handlerStep, h, hr]

theorem handlerStep_readRun_running (h : s.handler = .readRun) (hr : s.runState = .running) :
    handlerStep s = { s with handler := .incSeconds } := by simp only [handlerStep, h, hr]

theorem handlerStep_incSeconds (h : s.handler = .incSeconds) (hs : s.seconds + 1 ≠ 60) :
    handlerStep s = { s with seconds := s.seconds + 1, handler := .toggleColon } := by
  simp only [handlerStep, h, hs, if_false]

theorem handlerStep_incSeconds_rollover (h : s.handler = .incSeconds) (hs : s.seconds + 1 = 60) :
    handlerStep s = { s with seconds := 60, handler := .zeroSeconds } := by simp only [handlerStep, h, hs, if_true]

theorem handlerStep_zeroSeconds (h : s.handler = .zeroSeconds) :
    handlerStep s = { s with seconds := 0, handler := .incMinutes } := by simp only [handlerStep, h]

theorem handlerStep_incMinutes (h : s.handler = .incMinutes) (hm : s.minutes + 1 ≠ 60) :
    handlerStep s = { s with minutes := s.minutes + 1, handler := .toggleColon } := by
  simp only [handlerStep, h, hm, if_false]

theorem handlerStep_incMinutes_rollover (h : s.handler = .incMinutes) (hm : s.minutes + 1 = 60) :
    handlerStep s = { s with minutes := 60, handler := .zeroMinutes } := by simp only [handlerStep, h, hm, if_true]

theorem handlerStep_zeroMinutes (h : s.handler = .zeroMinutes) :
    handlerStep s = { s with minutes := 0, handler := .toggleColon } := by simp only [handlerStep, h]

theorem handlerStep_toggleColon (h : s.handler = .toggleColon) :
    handlerStep s = { s with colonPhase := !s.colonPhase, handler := .compose } := by simp only [handlerStep, h]

theorem handlerStep_compose (h : s.handler = .compose) : handlerStep s = { s with handler := .issue (tickWord s) } := by
  simp only [handlerStep, h]

theorem handlerStep_issue {w : Word} (h : s.handler = .issue w) : handlerStep s = s := by simp only [handlerStep, h]

theorem handlerStep_wait_of_noted (h : s.handler = .wait) (hn : s.fNoted = true) : handlerStep s = endTick s := by
  simp only [handlerStep, h, hn, if_true]

theorem handlerStep_wait_of_not_noted (h : s.handler = .wait) (hn : s.fNoted = false) : handlerStep s = s := by
  simp only [handlerStep, h, hn, Bool.false_eq_true, if_false]

end HandlerActions

/-! ## A handler move -/

theorem fetchHandler_eq_none {s : State} (h : s.handler.word = none) : fetchHandler s = none := by
  simp [fetchHandler, h]

section HandlerMoves
variable {s : State} (hm : nextMove s = .handler)
include hm

theorem fetch_handler : fetch (nextMove s) (takeMove s) = fetchHandler (takeMove s) := by rw [hm]; rfl

/-- Away from its `ISSUE` the handler, in a run of the reference host, takes its action. -/
theorem step_handlerMove (hw : s.handler.word = none) :
    step s = .next (if handlerRuns (takeMove s) then handlerStep (takeMove s) else takeMove s) := by
  rw [step_of_fetch_none ((fetch_handler hm).trans (fetchHandler_eq_none (by rwa [takeMove_handler]))), hm]
  rfl

/-- Until `f_done` has been given to the host, the handler stays. -/
theorem step_handler_waits (hw : s.handler = .wait) (hn : s.fNoted = false) : step s = .next (takeMove s) := by
  rw [step_handlerMove hm (by rw [hw]; rfl),
    handlerStep_wait_of_not_noted ((takeMove_handler s).trans hw) ((takeMove_fNoted s).trans hn), ite_self]

theorem step_handler_ends (hh : s.host = .reference) (hw : s.handler = .wait) (hn : s.fNoted = true) :
    step s = .next { takeMove s with handler := .idle } := by
  rw [step_handlerMove hm (by rw [hw]; rfl), if_pos ((handlerRuns_iff _).mpr ((takeMove_host s).trans hh)),
    handlerStep_wait_of_noted ((takeMove_handler s).trans hw) ((takeMove_fNoted s).trans hn)]
  rfl

/-- The handler's `ISSUE` to a ready unit: the command runs, and the handler waits. -/
theorem step_handler_issue {w : Word} {i : Instr} (hh : s.host = .reference) (hw : s.handler = .issue w)
    (hd : decode (.word w) = .ok i) (hr : ready i (takeMove s) = true) :
    step s = exec i { takeMove s with handler := .wait } := by
  have hfetch : fetchHandler (takeMove s) = some (.word w, { takeMove s with handler := .wait }) := by
    simp [fetchHandler, hh, (handler_word_iff _ w).mpr hw]
  rw [step_of_decoded ((fetch_handler hm).trans hfetch) hd, presented, if_pos hr]

end HandlerMoves

/-! ## The redisplay of either thread -/

theorem ready_render {m sec : BitVec 6} {c : Bool} {s : State} (hb : s.fBusy = false) :
    ready (.render m sec c) s = true := by simp [ready, Instr.consumer, fReady, hb]

/-- An idle framer accepts a RENDER in its domain. -/
theorem exec_render_accepts {m sec : BitVec 6} (c : Bool) {s : State} (hm : m.toNat ≤ 59) (hs : sec.toNat ≤ 59)
    (hb : s.fBusy = false) :
    ∃ d, exec (.render m sec c) s = .next (loadFramer (renderWord m sec c) (expand (.render m sec c)) d s) := by
  obtain ⟨d, hd⟩ := digits_some c (time_in_domain hm hs)
  exact ⟨d, by rw [expand_render hd, exec_render_of_idle hm hs hd hb]⟩

theorem decode_renderWord {m sec : BitVec 6} (c : Bool) (hm : m.toNat ≤ 59) (hs : sec.toNat ≤ 59) :
    decode (.word (renderWord m sec c)) = .ok (.render m sec c) :=
  decode_encode (i := .render m sec c) (time_in_domain hm hs)

end Sys2Proof.Machine
end

section
/-! PROOF. The invariant of the reference host, and that none of its words is refused (43_host_stopwatch.md R190, R196,
R198). -/

namespace Sys2Proof.Machine

/-! ## The invariant, field by field -/

/-- The positions of the handler at which the transient 60 stands. -/
def Handler.rollsOver : Handler → Bool
  | .zeroSeconds => true
  | .zeroMinutes => true
  | _ => false

theorem timeInv_iff {s : State} (h : s.handler.rollsOver = false) : TimeInv s ↔ s.seconds < 60 ∧ s.minutes < 60 := by
  cases hh : s.handler with
  | zeroSeconds | zeroMinutes => rw [hh] at h; cases h
  | _ => simp only [TimeInv, hh]

theorem timeInv_zeroSeconds_iff {s : State} (h : s.handler = .zeroSeconds) :
    TimeInv s ↔ s.seconds = 60 ∧ s.minutes < 60 := by simp only [TimeInv, h]

theorem timeInv_zeroMinutes_iff {s : State} (h : s.handler = .zeroMinutes) :
    TimeInv s ↔ s.seconds < 60 ∧ s.minutes = 60 := by simp only [TimeInv, h]

/-- The invariant speaks of the host's own part only. -/
theorem hostInv_congr {s t : State} (h : hostPart t = hostPart s) (hs : HostInv s) : HostInv t := by
  simp only [hostPart, Prod.mk.injEq] at h
  obtain ⟨_, hminutes, hseconds, hcolon, hfg, hhandler, _⟩ := h
  simpa only [HostInv, TimeInv, tickWord, hminutes, hseconds, hcolon, hfg, hhandler] using hs

/-- Where the foreground goes, the invariant asks only what it presents there. -/
theorem HostInv.moveForeground {s : State} (hs : HostInv s) {r : RunState} {f : Foreground} {b : Bool}
    (hf : ∀ w c, f = .issue w c → callWord c w) : HostInv { s with runState := r, tickEnabled := b, fg := f } := by
  obtain ⟨htime, _, hword⟩ := hs
  exact ⟨htime, hf, hword⟩

/-- A handler about to do neither its carries nor its `ISSUE` needs only a time in range. -/
theorem hostInv_of_time {s : State} (hroll : s.handler.rollsOver = false) (hissue : s.handler.word = none)
    (hsec : s.seconds < 60) (hmin : s.minutes < 60) (hfg : ∀ w c, s.fg = .issue w c → callWord c w) : HostInv s :=
  ⟨(timeInv_iff hroll).mpr ⟨hsec, hmin⟩, hfg, fun w hw => nomatch hissue.symm.trans ((handler_word_iff _ w).mpr hw)⟩

theorem callWord_loopHead (w : Word) (c : Call) (h : loopHead = .issue w c) : callWord c w := by cases h; rfl

/-! ## Each thread keeps it -/

/-- The foreground's action while no handler runs. -/
theorem foregroundStep_hostInv {s : State} (hs : HostInv s) (hi : s.handler = .idle) : HostInv (foregroundStep s) := by
  have hroll : s.handler.rollsOver = false := by rw [hi]; rfl
  have hissue : s.handler.word = none := by rw [hi]; rfl
  have ⟨htime, _, _⟩ := hs
  obtain ⟨hsec, hmin⟩ := (timeInv_iff hroll).mp htime
  cases hf : s.fg with
  | bootInit =>
    cases hp : s.periphReady with
    | false => rwa [foregroundStep_bootInit_of_not_ready hf hp]
    | true =>
      rw [foregroundStep_bootInit_of_ready hf hp]
      exact hs.moveForeground nofun
  | bootVars =>
    rw [foregroundStep_bootVars hf]
    exact hostInv_of_time hroll hissue (Nat.succ_pos 59) (Nat.succ_pos 59) fun w c h => by cases h; rfl
  | issue w c => rwa [foregroundStep_issue hf]
  | wait c =>
    cases hc : callDone c s with
    | false => rwa [foregroundStep_wait_of_not_done hf hc]
    | true =>
      rw [foregroundStep_wait_of_done hf hc]
      refine hs.moveForeground fun w c' h => ?_
      cases c with
      | reset => exact callWord_loopHead w c' h
      | boot | scan => cases h
  | enableTick =>
    rw [foregroundStep_enableTick hf]
    exact hs.moveForeground callWord_loopHead
  | readKey =>
    rw [foregroundStep_readKey hf]
    exact hs.moveForeground nofun
  | dispatch k => rwa [foregroundStep_dispatch hf]
  | resetMinutes =>
    rw [foregroundStep_resetMinutes hf]
    exact hostInv_of_time hroll hissue hsec (Nat.succ_pos 59) nofun
  | resetSeconds =>
    rw [foregroundStep_resetSeconds hf]
    exact hostInv_of_time hroll hissue (Nat.succ_pos 59) hmin nofun
  | resetColon =>
    rw [foregroundStep_resetColon hf]
    exact hs.moveForeground fun w c h => by cases h; exact ⟨_, rfl⟩

/-- The handler's action: a carry is the one way out of the range, and the next action ends it. -/
theorem handlerStep_hostInv {s : State} (hs : HostInv s) : HostInv (handlerStep s) := by
  have ⟨htime, hfg, _⟩ := hs
  have range : s.handler.rollsOver = false → s.seconds < 60 ∧ s.minutes < 60 := fun h => (timeInv_iff h).mp htime
  cases hh : s.handler with
  | idle => rwa [handlerStep_idle hh]
  | readRun =>
    obtain ⟨hsec, hmin⟩ := range (by rw [hh]; rfl)
    cases hr : s.runState with
    | stopped =>
      rw [handlerStep_readRun_stopped hh hr]
      exact hostInv_of_time rfl rfl hsec hmin hfg
    | running =>
      rw [handlerStep_readRun_running hh hr]
      exact hostInv_of_time rfl rfl hsec hmin hfg
  | incSeconds =>
    obtain ⟨hsec, hmin⟩ := range (by rw [hh]; rfl)
    by_cases h60 : s.seconds + 1 = 60
    · rw [handlerStep_incSeconds_rollover hh h60]
      exact ⟨⟨rfl, hmin⟩, hfg, nofun⟩
    · rw [handlerStep_incSeconds hh h60]
      exact hostInv_of_time rfl rfl (Nat.lt_of_le_of_ne hsec h60) hmin hfg
  | zeroSeconds =>
    obtain ⟨_, hmin⟩ := (timeInv_zeroSeconds_iff hh).mp htime
    rw [handlerStep_zeroSeconds hh]
    exact hostInv_of_time rfl rfl (Nat.succ_pos 59) hmin hfg
  | incMinutes =>
    obtain ⟨hsec, hmin⟩ := range (by rw [hh]; rfl)
    by_cases h60 : s.minutes + 1 = 60
    · rw [handlerStep_incMinutes_rollover hh h60]
      exact ⟨⟨hsec, rfl⟩, hfg, nofun⟩
    · rw [handlerStep_incMinutes hh h60]
      exact hostInv_of_time rfl rfl hsec (Nat.lt_of_le_of_ne hmin h60) hfg
  | zeroMinutes =>
    obtain ⟨hsec, _⟩ := (timeInv_zeroMinutes_iff hh).mp htime
    rw [handlerStep_zeroMinutes hh]
    exact hostInv_of_time rfl rfl hsec (Nat.succ_pos 59) hfg
  | toggleColon =>
    obtain ⟨hsec, hmin⟩ := range (by rw [hh]; rfl)
    rw [handlerStep_toggleColon hh]
    exact hostInv_of_time rfl rfl hsec hmin hfg
  | compose =>
    rw [handlerStep_compose hh]
    exact ⟨range (by rw [hh]; rfl), hfg, fun w h => by cases h; rfl⟩
  | issue w => rwa [handlerStep_issue hh]
  | wait =>
    obtain ⟨hsec, hmin⟩ := range (by rw [hh]; rfl)
    cases hn : s.fNoted with
    | false => rwa [handlerStep_wait_of_not_noted hh hn]
    | true =>
      rw [handlerStep_wait_of_noted hh hn]
      exact hostInv_of_time rfl rfl hsec hmin hfg

/-! ## Every part of a step keeps it -/

theorem takeMove_hostInv {s : State} (hs : HostInv s) : HostInv (takeMove s) :=
  hostInv_congr (by simp [hostPart]) hs

theorem resetMachine_hostInv (s : State) : HostInv (resetMachine s) :=
  hostInv_of_time rfl rfl (Nat.succ_pos 59) (Nat.succ_pos 59) nofun

theorem takeTick_hostInv {s : State} (hs : HostInv s) : HostInv (takeTick s) := by
  rcases takeTick_cases s with ⟨⟨_, _, hi⟩, h⟩ | ⟨_, h⟩ <;> rw [h]
  · obtain ⟨htime, hfg, _⟩ := hs
    obtain ⟨hsec, hmin⟩ := (timeInv_iff (by rw [hi]; rfl)).mp htime
    exact hostInv_of_time rfl rfl hsec hmin hfg
  · exact hs

theorem framerStep_hostPart (s : State) : hostPart (framerStep s) = hostPart s := by
  obtain ⟨_, hhost, _⟩ := framerStep_frame s
  exact hhost

theorem scannerStep_hostPart (v : BitVec 4) (s : State) : hostPart (scannerStep v s) = hostPart s := by
  obtain ⟨_, hhost, _⟩ := scannerStep_frame v s
  exact hhost

theorem displayIdle_hostPart (s : State) : hostPart (displayIdle s) = hostPart s := by
  unfold displayIdle
  repeat' split
  all_goals rfl

theorem unitMove_hostInv (m : Move) {s : State} (hs : HostInv s) : HostInv (unitMove m s) := by
  cases m with
  | command => exact hs
  | framer => exact hostInv_congr (framerStep_hostPart s) hs
  | scanner v => exact hostInv_congr (scannerStep_hostPart v s) hs
  | scannerIdeal => exact hostInv_congr (scannerStep_hostPart _ s) hs
  | foreground =>
    rw [unitMove]
    split
    · rename_i hruns
      exact foregroundStep_hostInv hs ((foregroundRuns_iff s).mp hruns).2
    · exact hs
  | handler =>
    rw [unitMove]
    split
    · exact handlerStep_hostInv hs
    · exact hs
  | tick => exact takeTick_hostInv hs
  | display => exact hostInv_congr (displayIdle_hostPart s) hs
  | press r c => exact hostInv_congr (s := s) rfl hs
  | release r c => exact hostInv_congr (s := s) rfl hs
  | peripheralReady => exact hs
  | rst => exact resetMachine_hostInv s

/-- Taking a code leaves the foreground waiting or at the loop's head, or the handler waiting. -/
theorem fetch_hostInv {m : Move} {s t : State} {c : Code} (hs : HostInv s) (h : fetch m s = some (c, t)) : HostInv t := by
  rcases fetch_some_cases h with ⟨_, h⟩ | ⟨_, h⟩ | ⟨_, h⟩ | ⟨_, h⟩
  · obtain ⟨_, w, ws, _, _, rfl⟩ := fetchCommand_some h
    exact hs
  · obtain ⟨_, ⟨w, a, _, _, rfl⟩ | ⟨k, _, _, rfl⟩⟩ := fetchForeground_some h
    · exact hs.moveForeground nofun
    · exact hs.moveForeground callWord_loopHead
  · obtain ⟨_, w, hw, _, rfl⟩ := fetchHandler_some h
    obtain ⟨htime, hfg, _⟩ := hs
    obtain ⟨hsec, hmin⟩ := (timeInv_iff (by rw [hw]; rfl)).mp htime
    exact hostInv_of_time rfl rfl hsec hmin hfg
  · obtain ⟨_, ⟨b, bs, _, _, rfl⟩ | ⟨b, bs, fs, _, _, _, rfl⟩⟩ := fetchDisplay_some h <;> exact hs

theorem exec_hostInv {i : Instr} {s t : State} (hs : HostInv s) (h : exec i s = .next t) : HostInv t := by
  cases hc : i.consumer with
  | framer => obtain ⟨_, ⟨_, rfl⟩ | ⟨w, df, _, _, rfl, _⟩⟩ := exec_framer_cases hc h <;> exact hs
  | scanner => obtain ⟨_, ⟨_, rfl⟩ | ⟨_, rfl⟩⟩ := exec_scanner_cases hc h <;> exact hs
  | display => obtain ⟨k, rfl⟩ | ⟨b, k, _, rfl⟩ := exec_display_cases hc h <;> exact hs
  | host =>
    have ⟨_, hfg, _⟩ := hs
    obtain ⟨r, f, rfl | rfl, rfl⟩ := exec_host_cases hc h
    · exact hs.moveForeground hfg
    · exact hs.moveForeground nofun

theorem passByte_hostPart (c : Code) (s : State) : hostPart (passByte c s) = hostPart s := by
  cases c with
  | data b => rcases storeData_cases b s with ⟨_, h⟩ | ⟨_, h⟩ <;> rw [passByte, h] <;> rfl
  | word w => rfl
  | bus b => rfl
  | key b => rfl

/-- Every step keeps the invariant. -/
theorem step_hostInv {s t : State} (hs : HostInv s) (h : step s = .next t) : HostInv t := by
  have htake := takeMove_hostInv hs
  rcases step_next_cases h with ⟨_, rfl⟩ | ⟨c, u, i, hf, _, hx⟩ | ⟨c, u, hf, _, rfl⟩
  · exact unitMove_hostInv _ htake
  · refine exec_hostInv ?_ hx
    rcases presented_cases i (takeMove s) u with ⟨_, hp⟩ | ⟨_, hp⟩ <;> rw [hp]
    · exact fetch_hostInv htake hf
    · exact htake
  · exact hostInv_congr (passByte_hostPart c u) (fetch_hostInv htake hf)

/-! ## No refusal -/

/-- A well-formed instruction has a next state. -/
theorem exec_goes_on {i : Instr} (hw : i.wellFormed = true) (s : State) : ∃ t, exec i s = .next t := by
  cases hc : i.consumer with
  | framer =>
    obtain ⟨w, df, _, hx, _⟩ := exec_framer_presents s hw hc
    rcases acceptFramer_cases w (expand i) df s with ⟨_, h⟩ | ⟨_, h⟩ <;> exact ⟨_, hx.trans h⟩
  | scanner =>
    cases i with
    | scan => rcases execScan_cases s with ⟨_, h⟩ | ⟨_, h⟩ <;> exact ⟨_, h⟩
    | _ => cases hc
  | display =>
    cases i with
    | busDataAutoinc | busAddr0 | busDisplayOn =>
      simp only [exec, execBusDataAutoinc, execBusAddr0, execBusDisplayOn]
      split <;> exact ⟨_, rfl⟩
    | colonBit low => exact ⟨_, rfl⟩
    | seg0 | seg1 | seg2 | seg3 | seg4 | seg5 | seg6 | seg7 | seg8 | seg9 => exact ⟨_, rfl⟩
    | _ => cases hc
  | host =>
    cases i with
    | key1 | key2 | key3 | keyA | key4 | key5 | key6 | keyB | key7 | key8 | key9 | keyC | keyStar | key0 | keyHash | keyD
      | keyNone => exact ⟨_, rfl⟩
    | _ => cases hc

/-- A verdict of the decoder with which a step goes on. -/
def NotRefused (v : Verdict) : Prop := (∃ i, v = .ok i) ∨ v = .unlisted

theorem listed_notRefused (o : Option Instr) : NotRefused (listed o) := by
  cases o with
  | none => exact .inr rfl
  | some i => exact .inl ⟨i, rfl⟩

theorem decodeData_notRefused (b : Byte) : NotRefused (decodeData b) := by
  unfold decodeData
  split
  · exact .inl ⟨_, rfl⟩
  · exact listed_notRefused _

theorem decode_callWord {c : Call} {w : Word} (h : callWord c w) : ∃ i, decode (.word w) = .ok i := by
  cases c with
  | boot => cases h; exact ⟨_, decode_renderWord Config.colonInit (by decide) (by decide)⟩
  | scan => cases h; exact ⟨.scan, rfl⟩
  | reset =>
    obtain ⟨b, rfl⟩ := h
    exact ⟨_, decode_renderWord b (by decide) (by decide)⟩

/-- A time in 0..59 fits its operand fields. -/
theorem decode_tickWord {s : State} (hsec : s.seconds < 60) (hmin : s.minutes < 60) :
    ∃ i, decode (.word (tickWord s)) = .ok i :=
  ⟨_, decode_renderWord s.colonPhase (by rw [BitVec.toNat_ofNat]; omega) (by rw [BitVec.toNat_ofNat]; omega)⟩

theorem fetched_notRefused {m : Move} {s t : State} {c : Code} (hs : HostInv s) (hh : s.host = .reference)
    (h : fetch m s = some (c, t)) : NotRefused (decode c) := by
  obtain ⟨htime, hfg, hword⟩ := hs
  rcases fetch_some_cases h with ⟨_, h⟩ | ⟨_, h⟩ | ⟨_, h⟩ | ⟨_, h⟩
  · rw [fetchCommand_of_reference hh] at h
    cases h
  · obtain ⟨_, ⟨w, a, hw, rfl, _⟩ | ⟨k, _, rfl, _⟩⟩ := fetchForeground_some h
    · exact .inl (decode_callWord (hfg w a hw))
    · exact listed_notRefused _
  · obtain ⟨_, w, hw, rfl, _⟩ := fetchHandler_some h
    obtain ⟨hsec, hmin⟩ := (timeInv_iff (by rw [hw]; rfl)).mp htime
    rw [hword w hw]
    exact .inl (decode_tickWord hsec hmin)
  · obtain ⟨_, ⟨b, bs, _, rfl, _⟩ | ⟨b, bs, fs, _, _, rfl, _⟩⟩ := fetchDisplay_some h
    · exact decodeData_notRefused b
    · exact listed_notRefused _

theorem step_goes_on {s : State} (hs : HostInv s) (hh : s.host = .reference) : ∃ t, step s = .next t := by
  cases hf : fetch (nextMove s) (takeMove s) with
  | none => exact ⟨_, step_of_fetch_none hf⟩
  | some p =>
    obtain ⟨c, u⟩ := p
    rcases fetched_notRefused (takeMove_hostInv hs) ((takeMove_host s).trans hh) hf with ⟨i, hd⟩ | hd
    · rw [step_of_decoded hf hd]
      obtain ⟨_, hw⟩ := encodeOfDecode c i hd
      exact exec_goes_on hw _
    · have hstep := step_of_noInstr hf fun i hok => nomatch hd.symm.trans hok
      rw [hd] at hstep
      exact ⟨_, hstep⟩

end Sys2Proof.Machine

open Sys2Proof.Machine

/-- Settles O54: every code the invariant lets be fetched is an instruction or an unlisted byte, and every part of a step
keeps the invariant. -/
theorem referenceHostNeverRefused : Obligations.ReferenceHostNeverRefused := by
  intro s hs hh
  obtain ⟨t, hstep⟩ := step_goes_on hs hh
  have hhost : t.host = .reference := (step_host hstep).trans hh
  exact ⟨t, hstep, step_hostInv hs hstep, hhost, by simp only [finalState, hhost]⟩
end

section
/-! PROOF. The control loop and the dispatch of a key result (43_host_stopwatch.md R192 to R195, R199). -/

namespace Sys2Proof.Machine

/-! ## Results without an action -/

/-- The instructions of the key results without a defined action (43_host_stopwatch.md R195). -/
def idleKeys : List Instr :=
  [.key1, .key2, .key3, .key4, .key5, .key6, .key7, .key8, .key9, .keyStar, .key0, .keyHash, .keyD, .keyNone]

theorem exec_idleKey {i : Instr} (h : i ∈ idleKeys) (s : State) : exec i s = .next s := by
  simp only [idleKeys, List.mem_cons, List.not_mem_nil, or_false] at h
  rcases h with rfl | rfl | rfl | rfl | rfl | rfl | rfl | rfl | rfl | rfl | rfl | rfl | rfl | rfl <;>
    exact noKeyAction_next s

theorem keyRows_idle : ∀ r ∈ keyRows, r.1 ≠ 0x41 → r.1 ≠ 0x42 → r.1 ≠ 0x43 → r.2 ∈ idleKeys := by decide

/-- A result other than the three commands is a row without an action, or no row. -/
theorem decode_key_of_ne {k : Byte} (hA : k ≠ 0x41) (hB : k ≠ 0x42) (hC : k ≠ 0x43) :
    (∃ i ∈ idleKeys, decode (.key k) = .ok i) ∨ decode (.key k) = .unlisted := by
  rcases listed_notRefused (keyRows.lookup k) with ⟨i, hd⟩ | hd
  · exact .inl ⟨i, keyRows_idle _ (listed_lookup_mem hd) hA hB hC, hd⟩
  · exact .inr hd

/-! ## The moves of Reset -/

section Reset
variable {s : State} (hm : nextMove s = .foreground) (hh : s.host = .reference) (hi : s.handler = .idle)
include hm hh hi

theorem step_dispatch_reset (hf : s.fg = .dispatch 0x43) :
    step s = .next { takeMove s with runState := .stopped, fg := .resetMinutes } :=
  step_foreground_dispatch (i := .keyC) hm hh hi hf rfl

theorem step_resetMinutes (hf : s.fg = .resetMinutes) :
    step s = .next { takeMove s with minutes := 0, fg := .resetSeconds } := by
  rw [step_foreground_action hm hh hi (by rw [hf]; rfl), foregroundStep_resetMinutes ((takeMove_fg s).trans hf)]

theorem step_resetSeconds (hf : s.fg = .resetSeconds) :
    step s = .next { takeMove s with seconds := 0, fg := .resetColon } := by
  rw [step_foreground_action hm hh hi (by rw [hf]; rfl), foregroundStep_resetSeconds ((takeMove_fg s).trans hf)]

theorem step_resetColon (hf : s.fg = .resetColon) :
    step s = .next { takeMove s with fg := .issue (renderWord 0 0 s.colonPhase) .reset } := by
  rw [← takeMove_colonPhase s, step_foreground_action hm hh hi (by rw [hf]; rfl),
    foregroundStep_resetColon ((takeMove_fg s).trans hf)]

end Reset

/-- The foreground on its way through Reset: the time it has left so far, and where it stands. -/
def midReset (s : State) (m sec : Nat) (f : Foreground) (ms : List Move) : State :=
  { endPulses s with runState := .stopped, minutes := m, seconds := sec, fg := f, moves := ms }

/-- The four moves of Reset up to its `ISSUE`. -/
theorem runSteps_reset {s : State} (ms : List Move) (hh : s.host = .reference) (hi : s.handler = .idle)
    (hf : s.fg = .dispatch 0x43) :
    runSteps 4 { s with moves := List.replicate 4 .foreground ++ ms } =
      .next { endPulses s with
        runState := .stopped, minutes := 0, seconds := 0, moves := ms
        fg := .issue (renderWord 0 0 s.colonPhase) .reset } := by
  have hstop : step { s with moves := List.replicate 4 .foreground ++ ms } =
      .next (midReset s s.minutes s.seconds .resetMinutes (List.replicate 3 .foreground ++ ms)) :=
    step_dispatch_reset rfl hh hi hf
  have hminutes : step (midReset s s.minutes s.seconds .resetMinutes (List.replicate 3 .foreground ++ ms)) =
      .next (midReset s 0 s.seconds .resetSeconds (List.replicate 2 .foreground ++ ms)) := step_resetMinutes rfl hh hi rfl
  have hseconds : step (midReset s 0 s.seconds .resetSeconds (List.replicate 2 .foreground ++ ms)) =
      .next (midReset s 0 0 .resetColon (List.replicate 1 .foreground ++ ms)) := step_resetSeconds rfl hh hi rfl
  have hcolon : step (midReset s 0 0 .resetColon (List.replicate 1 .foreground ++ ms)) =
      .next (midReset s 0 0 (.issue (renderWord 0 0 s.colonPhase) .reset) ms) := step_resetColon rfl hh hi rfl
  rw [runSteps_succ_of_next 3 hstop, runSteps_succ_of_next 2 hminutes, runSteps_succ_of_next 1 hseconds,
    runSteps_succ_of_next 0 hcolon]
  rfl

end Sys2Proof.Machine

open Sys2Proof Sys2Proof.Machine

/-- Settles O43: the meaning of the row 'A'. -/
theorem startKeySetsRunning : Obligations.StartKeySetsRunning := fun _ => rfl

/-- Settles O44: the meaning of the row 'B'. -/
theorem stopKeySetsStopped : Obligations.StopKeySetsStopped := fun _ => rfl

/-- Settles O45: the result is one of the fourteen rows without an action, or an unlisted byte, which the host passes over. -/
theorem otherResultsChangeNothing : Obligations.OtherResultsChangeNothing := by
  refine ⟨fun s i hi => exec_idleKey hi s, fun s k hm hh hi hf hA hB hC => ?_⟩
  rcases decode_key_of_ne hA hB hC with ⟨i, hidle, hd⟩ | hd
  · rw [step_foreground_dispatch hm hh hi hf hd]
    exact exec_idleKey hidle _
  · have hstep := step_of_noInstr (fetch_foreground_dispatch hm hh hi hf) fun i hok => nomatch hd.symm.trans hok
    rwa [hd] at hstep

/-- Settles O46: one lemma for each position of the sequence, and the acceptance of its RENDER by an idle framer. -/
theorem resetKeySequence : Obligations.ResetKeySequence := by
  refine ⟨fun _ => rfl, fun s ms => runSteps_reset ms, fun s hm hh hi => ?_, fun s c hm hh hi hf hb => ?_⟩
  · have hdone : callDone .reset (takeMove s) = s.fNoted := takeMove_fNoted s
    exact ⟨step_dispatch_reset hm hh hi, step_resetMinutes hm hh hi, step_resetSeconds hm hh hi, step_resetColon hm hh hi,
      fun hf hn => step_foreground_waits hm hf (hdone.trans hn),
      fun hf hn => step_foreground_continues hm hh hi hf (hdone.trans hn)⟩
  · have hb' : (takeMove s).fBusy = false := (takeMove_fBusy s).trans hb
    obtain ⟨d, hx⟩ := exec_render_accepts (m := 0) (sec := 0) c (s := { takeMove s with fg := .wait .reset }) (by decide)
      (by decide) hb'
    have hstep := step_foreground_issue hm hh hi hf (decode_renderWord c (by decide) (by decide)) (ready_render hb')
    exact ⟨_, hstep.trans hx, rfl, rfl, rfl, by simp, by simp, by simp, by simp, by simp⟩

/-- Settles O53: SCAN is presented to an idle scanner, and after its completion the foreground's next action reads KEY. -/
theorem controlLoopTurn : Obligations.ControlLoopTurn := by
  refine ⟨fun s hm hh hi hf hb => ?_, fun s hm _ hf hn => ?_, fun s ms hh hi hf hn => ?_⟩
  · have hb' : (takeMove s).kBusy = false := (takeMove_kBusy s).trans hb
    have hstep := step_foreground_issue (i := .scan) hm hh hi hf rfl (by simp [ready, Instr.consumer, kReady, hb])
    have hx := exec_scan_of_idle (s := { takeMove s with fg := .wait .scan }) hb'
    exact ⟨_, hstep.trans hx, rfl, rfl, rfl, by simp [scanWord], takeMove_framerPart s⟩
  · exact step_foreground_waits hm hf ((takeMove_kNoted s).trans hn)
  · have hdone : step { s with moves := .foreground :: .foreground :: ms } =
        .next { endPulses s with fg := .readKey, moves := .foreground :: ms } :=
      step_foreground_continues (s := { s with moves := .foreground :: .foreground :: ms }) rfl hh hi hf hn
    have hread : step { endPulses s with fg := .readKey, moves := .foreground :: ms } =
        .next { endPulses s with fg := .dispatch s.key, moves := ms } := step_readKey rfl hh hi rfl
    rw [runSteps_succ_of_next 1 hdone, runSteps_succ_of_next 0 hread]
    rfl
end

section
/-! PROOF. The tick handler from its start to its end (43_host_stopwatch.md R196 to R198, R204). -/

namespace Sys2Proof.Machine

/-! ## The time -/

/-- One action of the handler in a run of its moves. -/
theorem runSteps_handler_action {s t : State} (n : Nat) (ms : List Move) (hh : s.host = .reference)
    (hw : s.handler.word = none) (hact : handlerStep (endPulses s) = t) :
    runSteps (n + 1) { s with moves := List.replicate (n + 1) .handler ++ ms } =
      runSteps n { t with moves := List.replicate n .handler ++ ms } := by
  have hissue : ∀ w, s.handler ≠ .issue w := fun w h => nomatch hw.symm.trans ((handler_word_iff _ w).mpr h)
  have hstep : step { s with moves := List.replicate (n + 1) .handler ++ ms } =
      .next (handlerStep { endPulses s with moves := List.replicate n .handler ++ ms }) := step_handler rfl hh hissue
  rw [runSteps_succ_of_next n hstep, handlerStep_moves, hact]

/-- The handler on its way through a tick: the time it has set so far, and where it stands. -/
def midTick (s : State) (m sec : Nat) (h : Handler) : State :=
  { endPulses s with minutes := m, seconds := sec, handler := h }

/-- One action of the handler on its way. -/
theorem runSteps_midTick {s t : State} {m sec : Nat} {h : Handler} (n : Nat) (ms : List Move) (hh : s.host = .reference)
    (hw : h.word = none) (hact : handlerStep (midTick s m sec h) = t) :
    runSteps (n + 1) { midTick s m sec h with moves := List.replicate (n + 1) .handler ++ ms } =
      runSteps n { t with moves := List.replicate n .handler ++ ms } :=
  runSteps_handler_action (s := midTick s m sec h) n ms hh hw hact

/-- From the new time to the `ISSUE` of its RENDER. -/
theorem runSteps_toggleColon (s : State) (m sec : Nat) (ms : List Move) (hh : s.host = .reference) :
    runSteps 2 { midTick s m sec .toggleColon with moves := List.replicate 2 .handler ++ ms } =
      .next { endPulses s with
        moves := ms
        minutes := m
        seconds := sec
        colonPhase := !s.colonPhase
        handler := .issue (renderWord (BitVec.ofNat 6 m) (BitVec.ofNat 6 sec) (!s.colonPhase)) } := by
  refine Eq.trans (runSteps_midTick 1 ms hh rfl (handlerStep_toggleColon rfl)) ?_
  exact runSteps_handler_action (s := { midTick s m sec .compose with colonPhase := !s.colonPhase }) 0 ms hh rfl
    (handlerStep_compose rfl)

section Running
variable {s : State} (n : Nat) (ms : List Move) (hh : s.host = .reference) (hr : s.handler = .readRun)
  (hrun : s.runState = .running)
include hh hr hrun

theorem runSteps_readRun : runSteps (n + 1) { s with moves := List.replicate (n + 1) .handler ++ ms } =
    runSteps n { midTick s s.minutes s.seconds .incSeconds with moves := List.replicate n .handler ++ ms } :=
  runSteps_handler_action n ms hh (by rw [hr]; rfl) (handlerStep_readRun_running (s := endPulses s) hr hrun)

/-- The seconds do not roll over. -/
theorem runSteps_advance_seconds (hs : s.seconds + 1 ≠ 60) :
    runSteps (n + 2) { s with moves := List.replicate (n + 2) .handler ++ ms } =
      runSteps n { midTick s s.minutes (s.seconds + 1) .toggleColon with moves := List.replicate n .handler ++ ms } :=
  (runSteps_readRun (n + 1) ms hh hr hrun).trans (runSteps_midTick n ms hh rfl (handlerStep_incSeconds rfl hs))

/-- The seconds roll over and are cleared. -/
theorem runSteps_clear_seconds (hs : s.seconds + 1 = 60) :
    runSteps (n + 3) { s with moves := List.replicate (n + 3) .handler ++ ms } =
      runSteps n { midTick s s.minutes 0 .incMinutes with moves := List.replicate n .handler ++ ms } := by
  refine (runSteps_readRun (n + 2) ms hh hr hrun).trans ?_
  refine Eq.trans (runSteps_midTick (n + 1) ms hh rfl (handlerStep_incSeconds_rollover rfl hs)) ?_
  exact runSteps_midTick (sec := 60) n ms hh rfl (handlerStep_zeroSeconds rfl)

/-- The seconds roll over, the minutes do not. -/
theorem runSteps_advance_minutes (hs : s.seconds + 1 = 60) (hm : s.minutes + 1 ≠ 60) :
    runSteps (n + 4) { s with moves := List.replicate (n + 4) .handler ++ ms } =
      runSteps n { midTick s (s.minutes + 1) 0 .toggleColon with moves := List.replicate n .handler ++ ms } :=
  (runSteps_clear_seconds (n + 1) ms hh hr hrun hs).trans (runSteps_midTick n ms hh rfl (handlerStep_incMinutes rfl hm))

/-- The minutes roll over too. -/
theorem runSteps_advance_hour (hs : s.seconds + 1 = 60) (hm : s.minutes + 1 = 60) :
    runSteps (n + 5) { s with moves := List.replicate (n + 5) .handler ++ ms } =
      runSteps n { midTick s 0 0 .toggleColon with moves := List.replicate n .handler ++ ms } := by
  refine (runSteps_clear_seconds (n + 2) ms hh hr hrun hs).trans ?_
  refine Eq.trans (runSteps_midTick (n + 1) ms hh rfl (handlerStep_incMinutes_rollover rfl hm)) ?_
  exact runSteps_midTick (m := 60) n ms hh rfl (handlerStep_zeroMinutes rfl)

end Running

/-! ## A tick while Stopped -/

theorem step_tick_starts {s : State} (hm : nextMove s = .tick) (hh : s.host = .reference) (he : s.tickEnabled = true)
    (hi : s.handler = .idle) : step s = .next { takeMove s with handler := .readRun } := by
  rw [step_of_fetch_none (by rw [hm]; rfl), hm, unitMove]
  rcases takeTick_cases (takeMove s) with ⟨_, h⟩ | ⟨hnot, _⟩
  · rw [h]
  · exact absurd ⟨(takeMove_host s).trans hh, (takeMove_tickEnabled s).trans he, (takeMove_handler s).trans hi⟩ hnot

end Sys2Proof.Machine

open Sys2Proof.Machine

/-- Settles O47: by which of the two counters roll over; the closed form is the counters' new values. -/
theorem tickAdvancesTime : Obligations.TickAdvancesTime := by
  intro s ms n hh hr hrun hmin hsec hn
  by_cases hs : s.seconds < 59
  · obtain rfl : n = 4 := by rw [hn, if_pos hs]
    have hm' : ((60 * s.minutes + s.seconds + 1) % 3600) / 60 = s.minutes := by omega
    have hs' : ((60 * s.minutes + s.seconds + 1) % 3600) % 60 = s.seconds + 1 := by omega
    rw [hm', hs', runSteps_advance_seconds 2 ms hh hr hrun (by omega), runSteps_toggleColon s _ _ ms hh]
  · have hroll : s.seconds + 1 = 60 := by omega
    rw [if_neg hs] at hn
    by_cases hm : s.minutes < 59
    · obtain rfl : n = 6 := by rw [hn, if_pos hm]
      have hm' : ((60 * s.minutes + s.seconds + 1) % 3600) / 60 = s.minutes + 1 := by omega
      have hs' : ((60 * s.minutes + s.seconds + 1) % 3600) % 60 = 0 := by omega
      rw [hm', hs', runSteps_advance_minutes 2 ms hh hr hrun hroll (by omega), runSteps_toggleColon s _ _ ms hh]
    · obtain rfl : n = 7 := by rw [hn, if_neg hm]
      have hm' : ((60 * s.minutes + s.seconds + 1) % 3600) / 60 = 0 := by omega
      have hs' : ((60 * s.minutes + s.seconds + 1) % 3600) % 60 = 0 := by omega
      rw [hm', hs', runSteps_advance_hour 2 ms hh hr hrun hroll (by omega), runSteps_toggleColon s _ _ ms hh]

/-- Settles O48: the tick starts the handler, whose one action ends it again. -/
theorem tickWhileStopped : Obligations.TickWhileStopped := by
  intro s ms hh he hi hstop
  refine Eq.trans (runSteps_succ_of_next 1 (step_tick_starts rfl hh he hi)) ?_
  refine Eq.trans (runSteps_handler_action (s := { endPulses s with handler := .readRun }) 0 ms hh rfl
    (handlerStep_readRun_stopped rfl hstop)) ?_
  have hback : endTick (endPulses s) = endPulses s := by rw [endTick, ← hi]; rfl
  exact congrArg (fun t => Host.Outcome.next { t with moves := ms }) hback

/-- Settles O49: the handler's `ISSUE` to an idle framer, its wait, and its end. -/
theorem tickRefreshCompletes : Obligations.TickRefreshCompletes := by
  refine ⟨fun s m sec c hm hh hw hmin hsec hb => ?_, fun s => step_handler_waits, fun s => step_handler_ends⟩
  have hb' : (takeMove s).fBusy = false := (takeMove_fBusy s).trans hb
  obtain ⟨d, hx⟩ := exec_render_accepts c (s := { takeMove s with handler := .wait }) hmin hsec hb'
  have hstep := step_handler_issue hm hh hw (decode_renderWord c hmin hsec) (ready_render hb')
  exact ⟨_, hstep.trans hx, rfl, rfl, rfl, by simp, takeMove_scannerPart s, takeMove_fg s⟩
end

section
/-! PROOF. Exceptions and the tick: no instruction and no step faults (60_exceptions.md R220), a tick that is not taken
(R236), and the foreground under a running handler (R232). -/

namespace Sys2Proof.Machine

/-! ## No fault -/

/-- A well-formed instruction goes on, and RENDER is the only row with operands outside its domain. -/
theorem exec_no_fault (i : Instr) (s : State) (r : Fault) : exec i s ≠ .fault r := by
  by_cases hw : i.wellFormed = true
  · obtain ⟨t, hx⟩ := exec_goes_on hw s
    rw [hx]
    exact nofun
  · cases i with
    | render m sec c => exact execRender_no_fault m sec c s r
    | _ => exact absurd rfl hw

/-- A code that is no instruction is refused or passed over. -/
theorem noInstr_no_fault (v : Verdict) (c : Code) (t : State) (r : Fault) : noInstr v c t ≠ .fault r := by
  cases v with
  | ok i => exact nofun
  | reserved | outOfDomain => exact nofun
  | unlisted => exact nofun

theorem step_no_fault (s : State) (r : Fault) : step s ≠ .fault r := by
  cases hf : fetch (nextMove s) (takeMove s) with
  | none =>
    rw [step_of_fetch_none hf]
    exact nofun
  | some p =>
    obtain ⟨c, t⟩ := p
    by_cases hd : ∃ i, decode c = .ok i
    · obtain ⟨i, hd⟩ := hd
      rw [step_of_decoded hf hd]
      exact exec_no_fault i _ r
    · rw [step_of_noInstr hf (not_exists.mp hd)]
      exact noInstr_no_fault (decode c) c t r

/-! ## A tick that is not taken -/

/-- A tick during the handler, or before the boot has enabled it, is dropped. -/
theorem step_tick_dropped {s : State} (hm : nextMove s = .tick) (hnot : ¬(s.tickEnabled = true ∧ s.handler = .idle)) :
    step s = .next (takeMove s) := by
  rw [step_of_fetch_none (by rw [hm]; rfl), hm, unitMove]
  rcases takeTick_cases (takeMove s) with ⟨⟨_, he, hi⟩, _⟩ | ⟨_, h⟩
  · exact absurd ⟨(takeMove_tickEnabled s).symm.trans he, (takeMove_handler s).symm.trans hi⟩ hnot
  · rw [h]

/-! ## The foreground under a running handler -/

theorem fetchForeground_of_handler_running {s : State} (hi : s.handler ≠ .idle) : fetchForeground s = none := by
  refine Option.eq_none_iff_forall_ne_some.mpr fun ⟨c, t⟩ hf => ?_
  obtain ⟨⟨_, hidle⟩, _⟩ := fetchForeground_some hf
  exact hi hidle

/-- A blocked foreground presents no code and takes no action. -/
theorem step_foreground_blocked {s : State} (hm : nextMove s = .foreground) (hi : s.handler ≠ .idle) :
    step s = .next (takeMove s) := by
  have hi' : (takeMove s).handler ≠ .idle := by rwa [takeMove_handler]
  have hblocked : ¬foregroundRuns (takeMove s) = true := fun h => hi' ((foregroundRuns_iff _).mp h).2
  rw [step_of_fetch_none ((fetch_foreground hm).trans (fetchForeground_of_handler_running hi')), hm, unitMove,
    if_neg hblocked]

end Sys2Proof.Machine

open Sys2Proof.Machine

/-- Settles O6: no instruction faults, and a step is an agent's own, an instruction, or a code that is none. -/
theorem nothingFaults : Obligations.NothingFaults := ⟨exec_no_fault, step_no_fault⟩

/-- Settles O50: the tick is taken where it is enabled and the handler idle, and dropped everywhere else. -/
theorem tickEntryAndDrop : Obligations.TickEntryAndDrop := fun _ hm =>
  ⟨step_tick_starts hm, fun hrun => step_tick_dropped hm fun h => hrun h.2,
    fun hoff => step_tick_dropped hm fun h => nomatch hoff.symm.trans h.1⟩

/-- Settles O51: a running handler leaves the foreground nothing to present and nothing to do. -/
theorem handlerBlocksForeground : Obligations.HandlerBlocksForeground := fun _ => step_foreground_blocked
end

section
/-! PROOF. Reset and the boot (70_reset_and_hazards.md R260, R266): what an asserted rst leaves, and the foreground's way
from reset to the loop's head. -/

namespace Sys2Proof.Machine

/-! ## An asserted rst -/

/-- No agent presents a code with `rst`: the step is the reset itself. -/
theorem step_rst {s : State} (hm : nextMove s = .rst) : step s = .next (resetMachine (takeMove s)) := by
  rw [step_of_fetch_none (by rw [hm]; rfl), hm]
  rfl

/-! ## The positions of the boot -/

section Boot
variable {s : State} (hm : nextMove s = .foreground)
include hm

/-- Before the peripheral is ready the boot hangs in its wait loop (60_exceptions.md R223). -/
theorem step_bootInit_waits (hf : s.fg = .bootInit) (hp : s.periphReady = false) : step s = .next (takeMove s) := by
  rw [step_foreground hm (by rw [hf]; rfl),
    foregroundStep_bootInit_of_not_ready ((takeMove_fg s).trans hf) ((takeMove_periphReady s).trans hp), ite_self]

section Runs
variable (hh : s.host = .reference) (hi : s.handler = .idle)
include hh hi

theorem step_bootInit_continues (hf : s.fg = .bootInit) (hp : s.periphReady = true) :
    step s = .next { takeMove s with fg := .bootVars } := by
  rw [step_foreground_action hm hh hi (by rw [hf]; rfl),
    foregroundStep_bootInit_of_ready ((takeMove_fg s).trans hf) ((takeMove_periphReady s).trans hp)]

theorem step_bootVars (hf : s.fg = .bootVars) :
    step s = .next { initHostVars (takeMove s) with fg := .issue bootWord .boot } := by
  rw [step_foreground_action hm hh hi (by rw [hf]; rfl), foregroundStep_bootVars ((takeMove_fg s).trans hf)]

theorem step_enableTick (hf : s.fg = .enableTick) :
    step s = .next { takeMove s with tickEnabled := true, fg := loopHead } := by
  rw [step_foreground_action hm hh hi (by rw [hf]; rfl), foregroundStep_enableTick ((takeMove_fg s).trans hf)]

/-- The boot's RENDER 0, 0, COLON_INIT is accepted by an idle framer, and the foreground waits for it. -/
theorem step_bootIssue (hf : s.fg = .issue bootWord .boot) (hb : s.fBusy = false) :
    ∃ d, step s = .next
      (loadFramer bootWord (expand (.render 0 0 Config.colonInit)) d { takeMove s with fg := .wait .boot }) := by
  have hb' : (takeMove s).fBusy = false := (takeMove_fBusy s).trans hb
  obtain ⟨d, hx⟩ := exec_render_accepts (m := 0) (sec := 0) Config.colonInit (s := { takeMove s with fg := .wait .boot })
    (by decide) (by decide) hb'
  exact ⟨d, (step_foreground_issue hm hh hi hf (decode_renderWord _ (by decide) (by decide)) (ready_render hb')).trans hx⟩

end Runs

end Boot

/-! ## The runs of the boot -/

/-- From the ready peripheral to the wait for the first display: the host's variables are set and the RENDER accepted. -/
theorem runSteps_boot {s : State} (ms : List Move) (hh : s.host = .reference) (hf : s.fg = .bootInit)
    (hi : s.handler = .idle) (hp : s.periphReady = true) (hb : s.fBusy = false) :
    ∃ d, runSteps 3 { s with moves := List.replicate 3 .foreground ++ ms } =
      .next (loadFramer bootWord (expand (.render 0 0 Config.colonInit)) d
        { initHostVars (endPulses s) with fg := .wait .boot, moves := ms }) := by
  have hready : step { s with moves := List.replicate 3 .foreground ++ ms } =
      .next { endPulses s with fg := .bootVars, moves := List.replicate 2 .foreground ++ ms } :=
    step_bootInit_continues rfl hh hi hf hp
  have hvars : step { endPulses s with fg := .bootVars, moves := List.replicate 2 .foreground ++ ms } =
      .next { initHostVars (endPulses s) with
        fg := .issue bootWord .boot, moves := List.replicate 1 .foreground ++ ms } := step_bootVars rfl hh hi rfl
  obtain ⟨d, hissue⟩ := step_bootIssue
    (s := { initHostVars (endPulses s) with fg := .issue bootWord .boot, moves := List.replicate 1 .foreground ++ ms })
    rfl hh hi rfl hb
  refine ⟨d, ?_⟩
  rw [runSteps_succ_of_next 2 hready, runSteps_succ_of_next 1 hvars, runSteps_succ_of_next 0 hissue]
  rfl

/-- From the completion of the first display to the loop's head: the tick is enabled on the way. -/
theorem runSteps_bootEnd {s : State} (ms : List Move) (hh : s.host = .reference) (hf : s.fg = .wait .boot)
    (hi : s.handler = .idle) (hn : s.fNoted = true) :
    runSteps 2 { s with moves := .foreground :: .foreground :: ms } =
      .next { endPulses s with tickEnabled := true, fg := loopHead, moves := ms } := by
  have hdone : step { s with moves := .foreground :: .foreground :: ms } =
      .next { endPulses s with fg := .enableTick, moves := .foreground :: ms } :=
    step_foreground_continues (s := { s with moves := .foreground :: .foreground :: ms }) rfl hh hi hf hn
  have henable : step { endPulses s with fg := .enableTick, moves := .foreground :: ms } =
      .next { endPulses s with tickEnabled := true, fg := loopHead, moves := ms } := step_enableTick rfl hh hi rfl
  rw [runSteps_succ_of_next 1 hdone, runSteps_succ_of_next 0 henable]
  rfl

end Sys2Proof.Machine

open Sys2Proof Sys2Proof.Machine

/-- Settles O52: the two runs of the boot, around its wait for the RENDER, and the wait for the peripheral before them. -/
theorem bootSequence : Obligations.BootSequence := by
  refine ⟨fun s ms hh hf hi hp hb => ?_, fun s ms hh hf hi hn => runSteps_bootEnd ms hh hf hi hn,
    fun s hm _ hf hn => step_foreground_waits hm hf ((takeMove_fNoted s).trans hn),
    fun s hm hf _ hp => step_bootInit_waits hm hf hp⟩
  obtain ⟨d, hrun⟩ := runSteps_boot ms hh hf hi hp hb
  exact ⟨_, hrun, rfl, rfl, rfl, rfl, rfl, rfl, rfl, rfl, rfl, rfl, rfl⟩

/-- Settles O60: `rst` puts every register and variable named here back to its value in `State.reset`. -/
theorem resetValues : Obligations.ResetValues := by
  refine fun s hm => ⟨_, step_rst hm, fun u hu => ?_⟩
  rcases List.mem_pair.mp hu with rfl | rfl <;>
    exact ⟨rfl, rfl, rfl, rfl, rfl, rfl, rfl, rfl, rfl, rfl, rfl, rfl, rfl, rfl, rfl, rfl, rfl, rfl⟩
end

section
/-! PROOF. RENDER outside its domain (41_framer_commands.md R146), and the words written out in the spec
(95_test_vectors.md B1, 30_encoding.md R100 to R105). -/

namespace Sys2Proof

/-- R93 over the word as a number. -/
theorem decodeWord_eq_outOfDomain_iff (w : Word) :
    decodeWord w = .outOfDomain ↔ w.toNat / 8192 = 5 ∧ (59 < w.toNat / 64 % 64 ∨ 59 < w.toNat % 64) := by
  rcases decodeWord_cases w with ⟨hop, hd⟩ | ⟨hop, hd⟩ | ⟨hop, hd⟩ | ⟨hop, hd⟩ | ⟨hop, hd⟩ | ⟨hop, hd⟩ | ⟨hop, hd⟩ <;>
    rw [hd]
  case inr.inr.inr.inr.inl =>
    split
    · exact iff_of_false nofun (by omega)
    · exact iff_of_true rfl (by omega)
  case inr.inr.inr.inr.inr.inr => exact iff_of_false nofun (by omega)
  all_goals
    refine iff_of_false ?_ (by omega)
    split <;> exact nofun

/-- A table word has the instruction of its code's verdict. -/
theorem decodeTableWord_of_decode {nbits w : Nat} {c : Code} {v : Verdict} (hc : tableCode nbits w = c)
    (hd : decode c = v) : decodeTableWord nbits w = verdictInstr v := by
  rw [decodeTableWord, hc, hd]

/-- A table word that is the code of a well-formed instruction is decoded to that instruction. -/
theorem decodeTableWord_of_encode {nbits w : Nat} {i : Instr} (hc : tableCode nbits w = encode i)
    (hw : i.wellFormed = true) : decodeTableWord nbits w = some i :=
  decodeTableWord_of_decode hc (decode_encode hw)

namespace Machine

/-- R146 at the instruction itself. -/
theorem execRender_refused {m sec : BitVec 6} (c : Bool) (s : State) (h : 59 < m.toNat ∨ 59 < sec.toNat) :
    execRender m sec c s = .refused .renderOutOfDomain := by
  have hout : ¬(timeInDomain m && timeInDomain sec) = true := by
    simp only [timeInDomain, Bool.and_eq_true, decide_eq_true_eq]
    omega
  rcases execRender_cases m sec c s with ⟨_, hx⟩ | ⟨_, hin, _⟩
  · exact hx
  · exact absurd hin hout

end Machine

end Sys2Proof

open Sys2Proof Sys2Proof.Machine

/-- Settles O5: the decoder's answer over the fields of the word, the refusal of that verdict by the step and of those
operands by RENDER, and the host's time, which is in the domain. -/
theorem renderOutOfDomainRefused : Obligations.RenderOutOfDomainRefused := by
  refine ⟨decodeWord_eq_outOfDomain_iff, fun s t w hf hd => ?_, fun m sec c s h => execRender_refused c s h,
    fun s hmin hsec hd => ?_⟩
  · have hstep := step_of_noInstr hf fun i hok => nomatch hd.symm.trans hok
    rwa [hd] at hstep
  · obtain ⟨i, hok⟩ := decode_tickWord hsec hmin
    exact nomatch hd.symm.trans hok

/-- Settles O3: eleven of the codes are those of the encoder, 2001 is a reserved word, A03C has 60 seconds. -/
theorem vectorWordsDecode : Obligations.VectorWordsDecode := by
  have reserved : decodeTableWord 16 0x2001 = none :=
    decodeTableWord_of_decode (c := .word 0x2001) rfl ((decodeWord_eq_reserved_iff 0x2001).mpr (by decide))
  have outOfDomain : decodeTableWord 16 0xA03C = none :=
    decodeTableWord_of_decode (c := .word 0xA03C) rfl ((decodeWord_eq_outOfDomain_iff 0xA03C).mpr (by decide))
  exact ⟨decodeTableWord_of_encode rfl rfl, decodeTableWord_of_encode rfl rfl, decodeTableWord_of_encode rfl rfl,
    decodeTableWord_of_encode rfl rfl, decodeTableWord_of_encode rfl rfl, decodeTableWord_of_encode rfl rfl,
    reserved, outOfDomain, decodeTableWord_of_encode rfl rfl, decodeTableWord_of_encode rfl rfl,
    decodeTableWord_of_encode rfl rfl, decodeTableWord_of_encode rfl rfl, decodeTableWord_of_encode rfl rfl⟩
end

section
/-! PROOF. What every step keeps of the display memory (20_memory.md R63), and the invariants right after reset
(10_state.md R42). -/

namespace Sys2Proof.Machine

theorem displayInv_congr {s t : State} (h : t.dm = s.dm) (hs : DisplayInv s) : DisplayInv t := by
  rwa [DisplayInv, h]

/-- One byte written below address 4. -/
theorem displayInv_write {s t : State} {a : Nat} {b : Byte} (ha : a < displaySize) (h : t.dm = s.dm.write a b)
    (hs : DisplayInv s) : DisplayInv t := by
  obtain ⟨hwf, hrange⟩ := hs
  rw [DisplayInv, h]
  refine ⟨Memory.wf_write a b hwf, fun c hc => ?_⟩
  rcases Memory.mem_write hc with rfl | hc
  · exact ha
  · exact hrange c hc

theorem SameBlock.displayInv {s u : State} (h : SameBlock s u) (hs : DisplayInv s) : DisplayInv u := by
  obtain ⟨_, _, _, hdm | ⟨a, b, ha, hdm⟩⟩ := h
  · exact displayInv_congr hdm hs
  · exact displayInv_write ha hdm hs

/-- Only the sink's store changes the display memory, and a reset does not. -/
theorem step_displayInv {s t : State} (hs : DisplayInv s) (h : step s = .next t) : DisplayInv t := by
  have htake : DisplayInv (takeMove s) := displayInv_congr (takeMove_dm s) hs
  rcases step_block_cases h with ⟨_, rfl⟩ | ⟨_, v, rfl⟩ | ⟨_, rfl⟩ | hu | ⟨u, i, w, df, hu, _, _, _, _, rfl, _⟩ |
    ⟨u, hu, _, rfl⟩
  · obtain ⟨_, _, _, hdm, _⟩ := framerStep_frame (takeMove s)
    exact displayInv_congr hdm htake
  · obtain ⟨_, _, _, hdm, _⟩ := scannerStep_frame v (takeMove s)
    exact displayInv_congr hdm htake
  · exact displayInv_congr (resetMachine_dm _) htake
  · exact hu.displayInv hs
  · exact displayInv_congr (loadFramer_dm w (expand i) df u) (hu.displayInv hs)
  · exact displayInv_congr (loadScanner_dm u) (hu.displayInv hs)

/-- An `rst` right after reset changes nothing. -/
theorem resetMachine_reset : resetMachine State.reset = State.reset := rfl

theorem reset_framerInv : FramerInv State.reset := framerInv_of_idle rfl rfl

theorem reset_countersAgree : CountersAgree State.reset := (countersAgree_iff _).mpr (selects_nil rfl)

/-- No event has been performed: the monitor is the initial one and the levels are those of the idle bus. -/
theorem reset_monitorInv : MonitorInv State.reset := ⟨rfl, rfl⟩

/-- No cell of the display is known. -/
theorem reset_displayInv : DisplayInv State.reset := ⟨reset_memory_wf, nofun⟩

end Sys2Proof.Machine

open Sys2Proof.Machine

/-- Settles O37: a step writes at most one byte of the display memory, below address 4. -/
theorem displayMemoryKept : Obligations.DisplayMemoryKept := fun _ _ => step_displayInv

/-- Settles O20: both units are idle, no event has been performed, and what `rst` leaves has the other two. -/
theorem invariantsHoldAtReset : Obligations.InvariantsHoldAtReset :=
  ⟨reset_framerInv, reset_countersAgree, resetMachine_reset ▸ reset_scannerInv State.reset, reset_monitorInv,
    reset_displayInv, resetMachine_reset ▸ resetMachine_hostInv State.reset⟩
end

section
/-! PROOF. The step of a move that presents a code (30_encoding.md R97, R107), and what taking a move does. -/

namespace Sys2Proof.Machine

/-- Taking a move changes no busy bit. -/
theorem ready_takeMove (i : Instr) (s : State) : ready i (takeMove s) = ready i s := by
  cases hc : i.consumer <;> simp [ready, hc, fReady, kReady]

/-- A listed move is taken from the list; a free one advances the counter of draws. -/
theorem takeMove_eq (s : State) :
    takeMove s =
      { s with
        fDone := false
        kDone := false
        moves := s.moves.tail
        draws := if s.moves = [] then s.draws + 1 else s.draws } := by
  cases hm : s.moves with
  | nil => simp [takeMove_of_nil hm, endPulses, hm]
  | cons m ms => simp [takeMove_of_cons hm, endPulses]

/-- The head of an outside host's program, once the move has been taken. -/
theorem fetch_command_of_program {s : State} {w : Word} {ws : List Word} (hm : nextMove s = .command)
    (hh : s.host = .program) (hp : s.program = w :: ws) :
    fetch (nextMove s) (takeMove s) = some (.word w, { takeMove s with program := ws }) := by
  rw [hm]
  exact fetchCommand_of_program ((takeMove_host s).trans hh) ((takeMove_program s).trans hp)

end Sys2Proof.Machine

open Sys2Proof.Machine

/-- Settles O7: the step runs the decoded instruction in the state its code is presented in, for any source of the code and
for the program of an outside host. -/
theorem stepRunsDecodedInstruction : Obligations.StepRunsDecodedInstruction := by
  refine ⟨fun _ _ _ _ => step_of_decoded, takeMove_eq, fun s w ws i hm hh hp hd => ?_⟩
  rw [← ready_takeMove]
  exact step_of_decoded (fetch_command_of_program hm hh hp) hd
end

section
/-! PROOF. The levels a framer command leaves (40_framer_primitives.md R126): the last write of each line decides. -/

namespace Sys2Proof.Machine

theorem finalLevels_frames (p : Bool × Bool) {fs : List (List Byte)} (h : fs ≠ []) :
    finalLevels p (expandFrames fs) = (true, true) := by
  induction fs generalizing p with
  | nil => exact absurd rfl h
  | cons f fs ih =>
    rw [expandFrames, finalLevels_append, finalLevels_frame]
    cases fs with
    | nil => rfl
    | cons g gs => exact ih (true, true) (List.cons_ne_nil g gs)

end Sys2Proof.Machine

open Sys2Proof.Machine

/-- Settles O23: START, a byte and STOP by their last writes; SENDFRAME and a refresh end with a frame. -/
theorem levelsAfterCommands : Obligations.LevelsAfterCommands := fun p =>
  have sendframe (b) : finalLevels p (expandSendframe b) = (true, true) := by
    rw [expandSendframe, finalLevels_append, finalLevels_stop]
  ⟨finalLevels_start p, finalLevels_stop p, finalLevels_wrbyte p, sendframe,
    fun df => finalLevels_frames p (fs := refreshFrames df) (List.cons_ne_nil _ _)⟩
end

section
/-! PROOF. The operator's moves on the set of pressed cells (42_keypad_scanner.md R174). -/

namespace Sys2Proof.Machine

theorem cellIndex_lt (r c : Fin 4) : cellIndex r c < 16 := by
  unfold cellIndex
  omega

/-- The mask of a cell has that one bit. -/
theorem cellMask_getLsbD (r c : Fin 4) (j : Nat) : (cellMask r c).getLsbD j = decide (j = cellIndex r c) := by
  have hmask : cellMask r c = BitVec.twoPow 16 (cellIndex r c) := rfl
  rw [hmask, BitVec.getLsbD_twoPow, decide_eq_true (cellIndex_lt r c), Bool.true_and]
  exact decide_eq_decide.mpr eq_comm

theorem pressKey_getLsbD (r c : Fin 4) (s : State) (j : Nat) :
    (pressKey r c s).pressed.getLsbD j = (s.pressed.getLsbD j || decide (j = cellIndex r c)) := by
  rw [← cellMask_getLsbD]
  exact BitVec.getLsbD_or

theorem releaseKey_getLsbD (r c : Fin 4) (s : State) (j : Nat) :
    (releaseKey r c s).pressed.getLsbD j = (s.pressed.getLsbD j && !decide (j = cellIndex r c)) := by
  rw [← cellMask_getLsbD, releaseKey, BitVec.getLsbD_and, BitVec.getLsbD_not]
  by_cases hj : j < 16
  · rw [decide_eq_true hj, Bool.true_and]
  · rw [BitVec.getLsbD_of_ge s.pressed j (not_lt.mp hj), Bool.false_and, Bool.false_and]

/-- A step with a given move that presents no code. -/
theorem step_of_move {s : State} {m : Move} (hm : nextMove s = m) (hf : fetch m (takeMove s) = none) :
    step s = .next (unitMove m (takeMove s)) := by
  subst hm
  exact step_of_fetch_none hf

end Sys2Proof.Machine

open Sys2Proof.Machine

/-- Settles O55: the cell's mask is set or cleared, and its one bit is the cell. -/
theorem operatorMovesKeys : Obligations.OperatorMovesKeys := by
  refine fun s r c => ⟨fun hm => ⟨_, step_of_move hm rfl, ?_, fun j hj => ?_⟩,
    fun hm => ⟨_, step_of_move hm rfl, ?_, fun j hj => ?_⟩⟩
  · exact (pressKey_getLsbD r c (takeMove s) _).trans (by simp [cellIndex])
  · exact (pressKey_getLsbD r c (takeMove s) j).trans (by simp [cellIndex, hj])
  · exact (releaseKey_getLsbD r c (takeMove s) _).trans (by simp [cellIndex])
  · exact (releaseKey_getLsbD r c (takeMove s) j).trans (by simp [cellIndex, hj])
end
